-- ==== Sys2Proof/Word.lean ====
section
/-! DEFINITION. The Transfer Word and the operation word: the two widths every other file is written over. -/

namespace Sys2Proof

/-- The Transfer Word, `W = 16` bits (00_scope.md R6; D25: "a model may fix `W = 16`"). -/
abbrev Word := BitVec 16

/-- The byte-enable mask, `BE = W / 8 = 2` bits, bit `i` for lane `i` (00_scope.md R6, 20_memory.md R65). -/
abbrev Lanes := BitVec 2

/-- `2^BE - 1`: every lane valid (41_bridge_fsm.md R175). -/
def allLanes : Lanes := 3#2

/-- One operation word: a decode key with the operands of the operation it selects. DESIGN CHOICE (log entry 3): the
spec fixes the keys and the input vectors bit by bit and gives no word that holds them together. -/
abbrev OpWord := BitVec 64

end Sys2Proof
end

