-- ==== Sys2Proof/Config.lean ====
section
/-! DEFINITION. What an implementation fixes (00_scope.md R6) and the values the spec leaves free. -/

namespace Sys2Proof

/-- One of the two queue instances (00_scope.md R11): `INQ`, producer P and consumer H; `OUTQ`, producer H and
consumer P. -/
inductive QueueId where
  | inq
  | outq
deriving DecidableEq, Repr

/-- `READ_GATING`: whether `read_strobe` waits for space in the inbound queue (00_scope.md R6, D14). -/
inductive ReadGating where
  | gated
  | ungated
deriving DecidableEq, Repr

/-- The construction parameters that stay open: the address width `A` and `READ_GATING` (00_scope.md R6). Both queues
take the same `A` (D8). -/
structure Cfg where
  a      : Nat
  gating : ReadGating
deriving DecidableEq, Repr

/-- `DEPTH = 2^A` (00_scope.md R6). -/
def Cfg.depth (c : Cfg) : Nat := 2 ^ c.a

/-- The legal values: `A >= 1` (00_scope.md R6, D8, U7). -/
def Cfg.legal (c : Cfg) : Bool := decide (1 ≤ c.a)

/-- The configuration of `State.reset`: `A = 3`, the smallest depth with which the source's scenario A runs
(95_test_vectors.md section 1.2), and `gated`, the spec's choice (D14). `A` is DESIGN CHOICE (log entry 1). -/
def Config.default : Cfg := ⟨3, .gated⟩

/-- `unspecified(W)` at look number `n`: a value nothing constrains, a fresh one for each look (00_scope.md R10,
10_state.md R38, D26; log entry 9). -/
opaque Config.unspecifiedWord : Nat → Word

/-- What an entry of a queue's storage holds before any enqueue has written it since the `n`-th reset: any value, fixed
until written (10_state.md R30, U3; log entry 10). Arguments: the reset, the queue, the storage index. -/
opaque Config.storageWord : Nat → QueueId → Nat → Word

end Sys2Proof
end

