-- ==== Sys2Proof/Syntax.lean ====
section
/-! DEFINITION. The operations of opcode_table.json, one constructor a row, with the input vectors they take. -/

namespace Sys2Proof

/-- The input vector of a P tick (30_encoding.md R96). -/
structure PI where
  rxf    : Bool
  txe    : Bool
  dataIn : Word
deriving DecidableEq, Repr

/-- The input vector of an H tick (30_encoding.md R98). -/
structure HI where
  submitValid : Bool
  pollReady   : Bool
  submitWord  : Word
deriving DecidableEq, Repr

/-- The four draws of a coincident edge, in the order of 42_harness.md R202 (90_conflicts.md C5). -/
structure Draws where
  d1 : Bool
  d2 : Bool
  d3 : Bool
  d4 : Bool
deriving DecidableEq, Repr

/-- The domain that calls `advance()` (42_harness.md R206); the peripheral's comes with the vector it presents. -/
inductive Caller where
  | host
  | peripheral (pi : PI)
deriving DecidableEq, Repr

/-- The operations. A Bool named `r`, `t`, `d`, `s`, `e`, `a`, `p` or `h` is the letter of the row's encoding: a key bit
that the row does not test (30_encoding.md R100 to R104). -/
inductive Instr where
  /-- `FSM = 001tds` (R160). -/
  | fsmIdleRead (t d s : Bool)
  /-- `FSM = 00011s` (R161). -/
  | fsmIdleWrite (s : Bool)
  /-- `FSM = 0000ds` (R162). -/
  | fsmIdleHoldT0 (d s : Bool)
  /-- `FSM = 00010s` (R163). -/
  | fsmIdleHoldD0 (s : Bool)
  /-- `FSM = 011tds` (R164), with `data_in`. -/
  | fsmReadCont (t d s : Bool) (dataIn : Word)
  /-- `FSM = 010tds` (R165). -/
  | fsmReadExit (t d s : Bool)
  /-- `FSM = 10r11s` (R166). -/
  | fsmWriteCont (r s : Bool)
  /-- `FSM = 10r0ds` (R167). -/
  | fsmWriteExitT0 (r d s : Bool)
  /-- `FSM = 10r10s` (R168). -/
  | fsmWriteExitD0 (r s : Bool)
  /-- `FSM = 11rtds` (R169). -/
  | fsmReserved (r t d s : Bool)
  /-- `QW = 11` (R130). -/
  | enq (q : QueueId) (wData : Word)
  /-- `QW = 10` (R131); `w_data` is ignored. -/
  | enqRefused (q : QueueId) (wData : Word)
  /-- `QW = 0s` (R132). -/
  | prodIdle (q : QueueId) (s : Bool)
  /-- `QW = es` (R133). -/
  | syncR2W (q : QueueId) (e s : Bool)
  /-- `QR = 11` (R135). -/
  | deq (q : QueueId)
  /-- `QR = 10` (R136). -/
  | deqEmpty (q : QueueId)
  /-- `QR = 0a` (R137). -/
  | consIdle (q : QueueId) (a : Bool)
  /-- `QR = ea` (R138). -/
  | syncW2R (q : QueueId) (e a : Bool)
  /-- `HOST = 1p` (R204); `p` is the poll slot of the same tick. -/
  | submit (p : Bool) (word : Word)
  /-- `HOST = s1` (R205); `s` and `word` are the submit slot of the same tick. -/
  | poll (s : Bool) (word : Word)
  /-- `HOST = 00` for the host, `STEP = 010` for the peripheral (R206). -/
  | advance (caller : Caller)
  /-- No key (R207). -/
  | fillLevel (q : QueueId)
  /-- `STEP = 010` (R200). -/
  | tickP (pi : PI)
  /-- `STEP = 001` (R201). -/
  | tickH (hi : HI)
  /-- `STEP = 011` (R202). -/
  | tickPH (pi : PI) (hi : HI) (draws : Draws)
  /-- `STEP = 1ph` (R310); `p` and `h` are the edges it coincides with. -/
  | reset (p h : Bool)
deriving DecidableEq, Repr

end Sys2Proof
end

