-- ==== Sys2Proof/WellFormed.lean ====
section
/-! DEFINITION. When a term of `Instr` stands for an operation the keys can express. -/

namespace Sys2Proof

/-- Every typed operand is in range by its type. The one check left: at `HOST = 01` there is no submit slot, so a `POLL`
without one carries no word (30_encoding.md R98: the word is "ignored when `submit_valid = 0`"; its bits are 0). -/
def Instr.wellFormed : Instr → Bool
  | .fsmIdleRead _ _ _ => true
  | .fsmIdleWrite _ => true
  | .fsmIdleHoldT0 _ _ => true
  | .fsmIdleHoldD0 _ => true
  | .fsmReadCont _ _ _ _ => true
  | .fsmReadExit _ _ _ => true
  | .fsmWriteCont _ _ => true
  | .fsmWriteExitT0 _ _ _ => true
  | .fsmWriteExitD0 _ _ => true
  | .fsmReserved _ _ _ _ => true
  | .enq _ _ => true
  | .enqRefused _ _ => true
  | .prodIdle _ _ => true
  | .syncR2W _ _ _ => true
  | .deq _ => true
  | .deqEmpty _ => true
  | .consIdle _ _ => true
  | .syncW2R _ _ _ => true
  | .submit _ _ => true
  | .poll s word => s || word == 0#16
  | .advance _ => true
  | .fillLevel _ => true
  | .tickP _ => true
  | .tickH _ => true
  | .tickPH _ _ _ => true
  | .reset _ _ => true

end Sys2Proof
end

