-- ==== Sys2Proof/Decode.lean ====
section
/-! DEFINITION. Decoding: an operation word is cut into fields once, its port code says which key of 30_encoding.md the
key field is, and the key selects the row. The encoder stands below the decoder.

Layout of an operation word (DESIGN CHOICE, log entry 3; the key, `PI` and `HI` fields are the spec's vectors bit by bit):
`[7:0]` key; `[15:8]` port; `[33:16]` the `PI` vector of R96 (`w_data` of a producer port in its `data_in` bits);
`[51:34]` the `HI` vector of R98; `[55:52]` the draws, `d1` in bit 55; `[56]` the queue, 0 for `INQ`; `[63:57]` zero. -/

namespace Sys2Proof

/-- The fields of an operation word. -/
structure Fields where
  key         : BitVec 8
  port        : BitVec 8
  dataIn      : Word
  txe         : Bool
  rxf         : Bool
  submitWord  : Word
  pollReady   : Bool
  submitValid : Bool
  draws       : BitVec 4
  queue       : Bool
  spare       : BitVec 7
deriving DecidableEq, Repr

/-- Cut an operation word into its fields. -/
def Fields.ofWord (w : OpWord) : Fields where
  key         := w.extractLsb' 0 8
  port        := w.extractLsb' 8 8
  dataIn      := w.extractLsb' 16 16
  txe         := w.getLsbD 32
  rxf         := w.getLsbD 33
  submitWord  := w.extractLsb' 34 16
  pollReady   := w.getLsbD 50
  submitValid := w.getLsbD 51
  draws       := w.extractLsb' 52 4
  queue       := w.getLsbD 56
  spare       := w.extractLsb' 57 7

/-- Why a word is no operation. -/
inductive DecodeError where
  /-- The port code names no port. -/
  | unknownPort
  /-- The key has a bit outside its format, or a pattern that no row of its port has. -/
  | undefinedKey
  /-- A field the operation does not use is not zero. -/
  | reservedBits
  /-- A reset of one clock domain alone (70_reset_and_hazards.md R313). -/
  | partialReset
deriving DecidableEq, Repr

/-- What a word decodes to. `noStep` is the key `STEP = 000`, which has no row and changes no register (R104). -/
inductive Decoded where
  | op (i : Instr)
  | noStep
  | bad (e : DecodeError)
deriving DecidableEq, Repr

/-! ### Port codes -/

/-- A bare key with no port code (log entry 4). -/
def portNone : BitVec 8 := 0#8
/-- Key `FSM` (R100). -/
def portFsm : BitVec 8 := 1#8
/-- Key `QW`, the operation it selects (R101). -/
def portQw : BitVec 8 := 2#8
/-- Key `QW`, the synchroniser that runs with it (R101). -/
def portQwSync : BitVec 8 := 3#8
/-- Key `QR`, the operation it selects (R102). -/
def portQr : BitVec 8 := 4#8
/-- Key `QR`, the synchroniser that runs with it (R102). -/
def portQrSync : BitVec 8 := 5#8
/-- Key `HOST`, the submit slot (R103). -/
def portSubmit : BitVec 8 := 6#8
/-- Key `HOST`, the poll slot (R103). -/
def portPoll : BitVec 8 := 7#8
/-- Key `HOST` with both slots unused: the host's `advance()` (R103, R206). -/
def portAdvanceH : BitVec 8 := 8#8
/-- Key `STEP` as the peripheral's `advance()` (R206). -/
def portAdvanceP : BitVec 8 := 9#8
/-- `FILL_LEVEL`, which has no key (R207). -/
def portFill : BitVec 8 := 10#8
/-- Key `STEP` (R104). -/
def portStep : BitVec 8 := 11#8
/-- A reset of one domain alone (R313): no operation of the block. -/
def portPartialReset : BitVec 8 := 12#8

/-- Which queue bit 56 names. -/
def queueOfBit (b : Bool) : QueueId := if b then .outq else .inq

/-- The `PI` vector of the fields (R96). -/
def Fields.pi (f : Fields) : PI := ⟨f.rxf, f.txe, f.dataIn⟩

/-- The `HI` vector of the fields (R98). -/
def Fields.hi (f : Fields) : HI := ⟨f.submitValid, f.pollReady, f.submitWord⟩

/-- The draws of the fields (R202). -/
def Fields.drawBits (f : Fields) : Draws :=
  ⟨f.draws.getLsbD 3, f.draws.getLsbD 2, f.draws.getLsbD 1, f.draws.getLsbD 0⟩

/-- Every field an operation does not use is zero. The arguments say which fields it uses. -/
def Fields.clear (f : Fields) (useData usePi useWord useHi useDraws useQueue : Bool) : Bool :=
  (useData || f.dataIn == 0#16) && (usePi || (!f.txe && !f.rxf)) && (useWord || f.submitWord == 0#16) &&
  (useHi || (!f.pollReady && !f.submitValid)) && (useDraws || f.draws == 0#4) && (useQueue || !f.queue) &&
  f.spare == 0#7

/-- Accept `i` if the unused fields are zero. -/
def guarded (ok : Bool) (i : Instr) : Decoded := if ok then .op i else .bad .reservedBits

/-- Key `FSM`: the ten rows of R100 and R169 in order; their masks leave no 6-bit key out. -/
def decodeFsm (f : Fields) : Decoded :=
  let k := f.key
  let r := k.getLsbD 3
  let t := k.getLsbD 2
  let d := k.getLsbD 1
  let s := k.getLsbD 0
  let plain := f.clear false false false false false false
  if k &&& 0xC0#8 != 0#8 then .bad .undefinedKey
  else if k &&& 0x38#8 == 0x08#8 then guarded plain (.fsmIdleRead t d s)
  else if k &&& 0x3E#8 == 0x06#8 then guarded plain (.fsmIdleWrite s)
  else if k &&& 0x3C#8 == 0x00#8 then guarded plain (.fsmIdleHoldT0 d s)
  else if k &&& 0x3E#8 == 0x04#8 then guarded plain (.fsmIdleHoldD0 s)
  else if k &&& 0x38#8 == 0x18#8 then guarded (f.clear true false false false false false) (.fsmReadCont t d s f.dataIn)
  else if k &&& 0x38#8 == 0x10#8 then guarded plain (.fsmReadExit t d s)
  else if k &&& 0x36#8 == 0x26#8 then guarded plain (.fsmWriteCont r s)
  else if k &&& 0x34#8 == 0x20#8 then guarded plain (.fsmWriteExitT0 r d s)
  else if k &&& 0x36#8 == 0x24#8 then guarded plain (.fsmWriteExitD0 r s)
  else guarded plain (.fsmReserved r t d s)

/-- Key `QW` (R101): the operation the key selects. -/
def decodeQw (f : Fields) : Decoded :=
  let q := queueOfBit f.queue
  let withData := f.clear true false false false false true
  if f.key &&& 0xFC#8 != 0#8 then .bad .undefinedKey
  else if f.key == 3#8 then guarded withData (.enq q f.dataIn)
  else if f.key == 2#8 then guarded withData (.enqRefused q f.dataIn)
  else guarded (f.clear false false false false false true) (.prodIdle q (f.key.getLsbD 0))

/-- Key `QW` (R101): the synchroniser, whatever the key. -/
def decodeQwSync (f : Fields) : Decoded :=
  if f.key &&& 0xFC#8 != 0#8 then .bad .undefinedKey
  else guarded (f.clear false false false false false true)
    (.syncR2W (queueOfBit f.queue) (f.key.getLsbD 1) (f.key.getLsbD 0))

/-- Key `QR` (R102): the operation the key selects. -/
def decodeQr (f : Fields) : Decoded :=
  let q := queueOfBit f.queue
  let plain := f.clear false false false false false true
  if f.key &&& 0xFC#8 != 0#8 then .bad .undefinedKey
  else if f.key == 3#8 then guarded plain (.deq q)
  else if f.key == 2#8 then guarded plain (.deqEmpty q)
  else guarded plain (.consIdle q (f.key.getLsbD 0))

/-- Key `QR` (R102): the synchroniser, whatever the key. -/
def decodeQrSync (f : Fields) : Decoded :=
  if f.key &&& 0xFC#8 != 0#8 then .bad .undefinedKey
  else guarded (f.clear false false false false false true)
    (.syncW2R (queueOfBit f.queue) (f.key.getLsbD 1) (f.key.getLsbD 0))

/-- Key `HOST`, submit slot: `1p` (R103). -/
def decodeSubmit (f : Fields) : Decoded :=
  if f.key &&& 0xFE#8 != 2#8 then .bad .undefinedKey
  else guarded (f.clear false false true false false false) (.submit (f.key.getLsbD 0) f.submitWord)

/-- Key `HOST`, poll slot: `s1` (R103). Without a submit slot the word is 0. -/
def decodePoll (f : Fields) : Decoded :=
  if f.key &&& 0xFD#8 != 1#8 then .bad .undefinedKey
  else guarded (f.clear false false (f.key.getLsbD 1) false false false) (.poll (f.key.getLsbD 1) f.submitWord)

/-- Key `HOST = 00`: the host's `advance()` (R103, R206). -/
def decodeAdvanceH (f : Fields) : Decoded :=
  if f.key != 0#8 then .bad .undefinedKey
  else guarded (f.clear false false false false false false) (.advance .host)

/-- Key `STEP = 010` as the peripheral's `advance()` (R206). -/
def decodeAdvanceP (f : Fields) : Decoded :=
  if f.key != 2#8 then .bad .undefinedKey
  else guarded (f.clear true true false false false false) (.advance (.peripheral f.pi))

/-- `FILL_LEVEL` (R207): no key. -/
def decodeFill (f : Fields) : Decoded :=
  if f.key != 0#8 then .bad .undefinedKey
  else guarded (f.clear false false false false false true) (.fillLevel (queueOfBit f.queue))

/-- Key `STEP` (R104). -/
def decodeStep (f : Fields) : Decoded :=
  if f.key &&& 0xF8#8 != 0#8 then .bad .undefinedKey
  else if f.key &&& 4#8 == 4#8 then
    guarded (f.clear false false false false false false) (.reset (f.key.getLsbD 1) (f.key.getLsbD 0))
  else if f.key == 3#8 then guarded (f.clear true true true true true false) (.tickPH f.pi f.hi f.drawBits)
  else if f.key == 2#8 then guarded (f.clear true true false false false false) (.tickP f.pi)
  else if f.key == 1#8 then guarded (f.clear false false true true false false) (.tickH f.hi)
  else if f.clear false false false false false false then .noStep
  else .bad .reservedBits

/-- A bare key, as opcode_table.json writes it: the table's formats share the numbers 0 to 7, and nothing in the bits says
which format is meant. DESIGN CHOICE (log entry 4): of the rows a number fits, one that tests its whole key wins over one
with letters, and the widest key wins among those left. So 1, 2 and 3 are the ticks of `STEP`, 0 is `ADVANCE`, and every
other number is an `FSM` key. -/
def decodeBare (f : Fields) : Decoded :=
  if f.key == 0#8 then decodeAdvanceH f
  else if f.key == 1#8 || f.key == 2#8 || f.key == 3#8 then decodeStep f
  else decodeFsm f

/-- Decode the fields: the port code says which key the key field is. -/
def decodeFields (f : Fields) : Decoded :=
  if f.port == portNone then
    if f.clear false false false false false false then decodeBare f else .bad .reservedBits
  else if f.port == portFsm then decodeFsm f
  else if f.port == portQw then decodeQw f
  else if f.port == portQwSync then decodeQwSync f
  else if f.port == portQr then decodeQr f
  else if f.port == portQrSync then decodeQrSync f
  else if f.port == portSubmit then decodeSubmit f
  else if f.port == portPoll then decodePoll f
  else if f.port == portAdvanceH then decodeAdvanceH f
  else if f.port == portAdvanceP then decodeAdvanceP f
  else if f.port == portFill then decodeFill f
  else if f.port == portStep then decodeStep f
  else if f.port == portPartialReset then .bad .partialReset
  else .bad .unknownPort

/-- Decode an operation word. Total. -/
def decode (w : OpWord) : Decoded := decodeFields (Fields.ofWord w)

/-- The operation word of a row of opcode_table.json whose bits are `w`: the key field, every other bit 0. -/
def tableWord (nbits w : Nat) : OpWord := BitVec.ofNat 64 (w % 2 ^ nbits)

/-- The operation the decoder reads from a row's bits. -/
def decodeTableWord (nbits w : Nat) : Option Instr :=
  match decode (tableWord nbits w) with
  | .op i => some i
  | .noStep => none
  | .bad _ => none

/-! ### The encoder -/

/-- The operation word with the given fields. -/
def Fields.toWord (f : Fields) : OpWord :=
  f.spare ++ BitVec.ofBool f.queue ++ f.draws ++ BitVec.ofBool f.submitValid ++ BitVec.ofBool f.pollReady ++
    f.submitWord ++ BitVec.ofBool f.rxf ++ BitVec.ofBool f.txe ++ f.dataIn ++ f.port ++ f.key

/-- Fields with a port and a key and every operand 0. -/
def Fields.bare (port key : BitVec 8) : Fields :=
  ⟨key, port, 0#16, false, false, 0#16, false, false, 0#4, false, 0#7⟩

/-- Bit 56 of a queue. -/
def QueueId.bit : QueueId → Bool
  | .inq => false
  | .outq => true

/-- The two low key bits of a 2-bit key. -/
def key2 (b1 b0 : Bool) : BitVec 8 := 0#6 ++ BitVec.ofBool b1 ++ BitVec.ofBool b0

/-- An `FSM` key: the state code and the four inputs (R100). -/
def key6 (st : BitVec 2) (r t d s : Bool) : BitVec 8 :=
  0#2 ++ st ++ BitVec.ofBool r ++ BitVec.ofBool t ++ BitVec.ofBool d ++ BitVec.ofBool s

/-- The `PI` vector into the fields (R96). -/
def Fields.withPi (f : Fields) (pi : PI) : Fields := { f with rxf := pi.rxf, txe := pi.txe, dataIn := pi.dataIn }

/-- The `HI` vector into the fields (R98). -/
def Fields.withHi (f : Fields) (hi : HI) : Fields :=
  { f with submitValid := hi.submitValid, pollReady := hi.pollReady, submitWord := hi.submitWord }

/-- The draws into the fields (R202). -/
def Fields.withDraws (f : Fields) (d : Draws) : Fields :=
  { f with draws := BitVec.ofBool d.d1 ++ BitVec.ofBool d.d2 ++ BitVec.ofBool d.d3 ++ BitVec.ofBool d.d4 }

/-- The fields of an operation's word. -/
def encodeFields : Instr → Fields
  | .fsmIdleRead t d s => Fields.bare portFsm (key6 0#2 true t d s)
  | .fsmIdleWrite s => Fields.bare portFsm (key6 0#2 false true true s)
  | .fsmIdleHoldT0 d s => Fields.bare portFsm (key6 0#2 false false d s)
  | .fsmIdleHoldD0 s => Fields.bare portFsm (key6 0#2 false true false s)
  | .fsmReadCont t d s x => { Fields.bare portFsm (key6 1#2 true t d s) with dataIn := x }
  | .fsmReadExit t d s => Fields.bare portFsm (key6 1#2 false t d s)
  | .fsmWriteCont r s => Fields.bare portFsm (key6 2#2 r true true s)
  | .fsmWriteExitT0 r d s => Fields.bare portFsm (key6 2#2 r false d s)
  | .fsmWriteExitD0 r s => Fields.bare portFsm (key6 2#2 r true false s)
  | .fsmReserved r t d s => Fields.bare portFsm (key6 3#2 r t d s)
  | .enq q x => { Fields.bare portQw (key2 true true) with queue := q.bit, dataIn := x }
  | .enqRefused q x => { Fields.bare portQw (key2 true false) with queue := q.bit, dataIn := x }
  | .prodIdle q s => { Fields.bare portQw (key2 false s) with queue := q.bit }
  | .syncR2W q e s => { Fields.bare portQwSync (key2 e s) with queue := q.bit }
  | .deq q => { Fields.bare portQr (key2 true true) with queue := q.bit }
  | .deqEmpty q => { Fields.bare portQr (key2 true false) with queue := q.bit }
  | .consIdle q a => { Fields.bare portQr (key2 false a) with queue := q.bit }
  | .syncW2R q e a => { Fields.bare portQrSync (key2 e a) with queue := q.bit }
  | .submit p x => { Fields.bare portSubmit (key2 true p) with submitWord := x }
  | .poll s x => { Fields.bare portPoll (key2 s true) with submitWord := x }
  | .advance .host => Fields.bare portAdvanceH 0#8
  | .advance (.peripheral pi) => (Fields.bare portAdvanceP 2#8).withPi pi
  | .fillLevel q => { Fields.bare portFill 0#8 with queue := q.bit }
  | .tickP pi => (Fields.bare portStep 2#8).withPi pi
  | .tickH hi => (Fields.bare portStep 1#8).withHi hi
  | .tickPH pi hi d => (((Fields.bare portStep 3#8).withPi pi).withHi hi).withDraws d
  | .reset p h => Fields.bare portStep (0#5 ++ BitVec.ofBool true ++ BitVec.ofBool p ++ BitVec.ofBool h)

/-- The word of an operation. -/
def encode (i : Instr) : OpWord := (encodeFields i).toWord

/-! ### The rows of opcode_table.json -/

/-- The `mask` of the operation's row: the key bits the row tests. -/
def rowMask : Instr → BitVec 8
  | .fsmIdleRead _ _ _ => 0b111000#8
  | .fsmIdleWrite _ => 0b111110#8
  | .fsmIdleHoldT0 _ _ => 0b111100#8
  | .fsmIdleHoldD0 _ => 0b111110#8
  | .fsmReadCont _ _ _ _ => 0b111000#8
  | .fsmReadExit _ _ _ => 0b111000#8
  | .fsmWriteCont _ _ => 0b110110#8
  | .fsmWriteExitT0 _ _ _ => 0b110100#8
  | .fsmWriteExitD0 _ _ => 0b110110#8
  | .fsmReserved _ _ _ _ => 0b110000#8
  | .enq _ _ => 0b11#8
  | .enqRefused _ _ => 0b11#8
  | .prodIdle _ _ => 0b10#8
  | .syncR2W _ _ _ => 0b00#8
  | .deq _ => 0b11#8
  | .deqEmpty _ => 0b11#8
  | .consIdle _ _ => 0b10#8
  | .syncW2R _ _ _ => 0b00#8
  | .submit _ _ => 0b10#8
  | .poll _ _ => 0b01#8
  | .advance .host => 0b11#8
  | .advance (.peripheral _) => 0b111#8
  | .fillLevel _ => 0b0#8
  | .tickP _ => 0b111#8
  | .tickH _ => 0b111#8
  | .tickPH _ _ _ => 0b111#8
  | .reset _ _ => 0b100#8

/-- The `match` of the operation's row: what the tested bits are. -/
def rowMatch : Instr → BitVec 8
  | .fsmIdleRead _ _ _ => 0b001000#8
  | .fsmIdleWrite _ => 0b000110#8
  | .fsmIdleHoldT0 _ _ => 0b000000#8
  | .fsmIdleHoldD0 _ => 0b000100#8
  | .fsmReadCont _ _ _ _ => 0b011000#8
  | .fsmReadExit _ _ _ => 0b010000#8
  | .fsmWriteCont _ _ => 0b100110#8
  | .fsmWriteExitT0 _ _ _ => 0b100000#8
  | .fsmWriteExitD0 _ _ => 0b100100#8
  | .fsmReserved _ _ _ _ => 0b110000#8
  | .enq _ _ => 0b11#8
  | .enqRefused _ _ => 0b10#8
  | .prodIdle _ _ => 0b00#8
  | .syncR2W _ _ _ => 0b00#8
  | .deq _ => 0b11#8
  | .deqEmpty _ => 0b10#8
  | .consIdle _ _ => 0b00#8
  | .syncW2R _ _ _ => 0b00#8
  | .submit _ _ => 0b10#8
  | .poll _ _ => 0b01#8
  | .advance .host => 0b00#8
  | .advance (.peripheral _) => 0b010#8
  | .fillLevel _ => 0b0#8
  | .tickP _ => 0b010#8
  | .tickH _ => 0b001#8
  | .tickPH _ _ _ => 0b011#8
  | .reset _ _ => 0b100#8

end Sys2Proof
end

