-- ==== Sys2Proof/Machine/State.lean ====
section
/-! DEFINITION. The state of the block (10_state.md R20), the spec's ghost quantities (R40), the model's own fields, the
reasons a step can stop, and the state after reset (R43). -/

namespace Sys2Proof.Machine

/-- A queue's storage: the entries an enqueue has written since reset, as (index, word) pairs with strictly rising
indices (10_state.md R30). The unit is one Transfer Word (20_memory.md R60; log entry 17). An index not listed holds
`unspecified(W)` (log entry 10). -/
abbrev Memory := List (Nat × Word)

/-- Ghost quantities of a queue (10_state.md R40, 44_invariants.md R250, R256, R258): used only to state laws. -/
structure Ghost where
  /-- `Q.Wc`: enqueues that fired since reset. -/
  wc       : Nat
  /-- `Q.Rc`: dequeues that fired since reset. -/
  rc       : Nat
  /-- `Q.Ws1`: the value of `Wc` that `r_wsync1` sampled. -/
  ws1      : Nat
  /-- `Q.Ws2`, for `r_wsync2`. -/
  ws2      : Nat
  /-- `Q.Rs1`: the value of `Rc` that `w_rsync1` sampled. -/
  rs1      : Nat
  /-- `Q.Rs2`, for `w_rsync2`. -/
  rs2      : Nat
  /-- `Q.contents`: the words enqueued and not yet dequeued, oldest first. -/
  contents : List Word
  /-- The words of the enqueues that fired, in order: `word(k)` of R256. -/
  enqueued : List Word
  /-- The words the dequeues that fired returned, in order (R258). -/
  dequeued : List Word
deriving DecidableEq, Repr

/-- One Dual-Clock Queue with `2^a` entries: the eight registers of R22 to R29, `PW = a + 1` bits each, and the storage of
R30. -/
structure Queue (a : Nat) where
  /-- R22. -/
  wptrBin  : BitVec (a + 1)
  /-- R23. -/
  wptrGray : BitVec (a + 1)
  /-- R24. -/
  wRsync1  : BitVec (a + 1)
  /-- R25. -/
  wRsync2  : BitVec (a + 1)
  /-- R26. -/
  rptrBin  : BitVec (a + 1)
  /-- R27. -/
  rptrGray : BitVec (a + 1)
  /-- R28. -/
  rWsync1  : BitVec (a + 1)
  /-- R29. -/
  rWsync2  : BitVec (a + 1)
  /-- R30. -/
  mem      : Memory
  /-- Not hardware (R40; log entry 13). -/
  ghost    : Ghost
deriving DecidableEq, Repr

/-- The block: both queues and the controller's 2-bit register `fsm.state` (R20, R32). -/
structure Block (a : Nat) where
  inq  : Queue a
  outq : Queue a
  fsm  : BitVec 2
deriving DecidableEq, Repr

/-- Who may drive the shared lines (41_bridge_fsm.md R177, 90_conflicts.md C2). -/
inductive BusOwner where
  | none
  | peripheral
  | controller
deriving DecidableEq, Repr

/-- The output vector of a P tick (30_encoding.md R97), with the abstract `bus_owner` (R177), which is no wire. -/
structure PO where
  readStrobe   : Bool
  writeStrobe  : Bool
  outputEnable : Bool
  byteEnable   : Lanes
  dataOut      : Word
  busOwner     : BusOwner
deriving DecidableEq, Repr

/-- The output vector of an H tick (30_encoding.md R99). -/
structure HO (a : Nat) where
  submitOk  : Bool
  pollValid : Bool
  pollWord  : Word
  outWLevel : BitVec (a + 1)
  inRLevel  : BitVec (a + 1)
deriving DecidableEq, Repr

/-- What a queue's two ports answered at a step: `enq_fire` (R120), `deq_fire` and the word a `DEQ` returned (R121,
R135). -/
structure PortObs where
  enqFire : Bool
  deqFire : Bool
  word    : Option Word
deriving DecidableEq, Repr

/-- What `FILL_LEVEL` of a queue reads (42_harness.md R207): `fill_level`, and the consumer-side level beside it. -/
structure LevelObs (a : Nat) where
  queue  : QueueId
  wLevel : BitVec (a + 1)
  rLevel : BitVec (a + 1)
deriving DecidableEq, Repr

/-- The error events a step can show (60_exceptions.md R286). None changes control flow, none is a fault. -/
inductive Event where
  /-- `CAPACITY_VIOLATION` (R281). -/
  | capacityViolation
  /-- `EMPTY_DEQUEUE` (R282). -/
  | emptyDequeue
  /-- `INBOUND_DROP` (R285). -/
  | inboundDrop
deriving DecidableEq, Repr

/-- The outputs of one step: combinational, evaluated before the edge (10_state.md R39). The hardware stores none of
them; the model keeps the last step's (log entry 12). -/
structure Obs (a : Nat) where
  po     : Option PO
  ho     : Option (HO a)
  inq    : PortObs
  outq   : PortObs
  level  : Option (LevelObs a)
  events : List (Event × QueueId)
deriving DecidableEq, Repr

/-- The state. `blk` is the block's (R20); the other fields are the model's. -/
structure State where
  /-- The construction parameters (00_scope.md R6): no step changes them (log entry 1). -/
  cfg     : Cfg
  /-- The block. -/
  blk     : Block cfg.a
  /-- Ghost: the words lost on the inbound path (60_exceptions.md R285; log entry 13). -/
  dropped : List Word
  /-- The outputs of the last step (log entry 12). -/
  obs     : Obs cfg.a
  /-- What the environment will still present, first word first (42_harness.md R203; log entry 5). -/
  pending : List OpWord
  /-- Whether a row that is only part of a tick is performed by itself when it is presented: the model's device for running
  one row of opcode_table.json. False at reset, set by no step: the block's environment only ticks and resets
  (43_environment.md R237; log entry 6). -/
  lone    : Bool
  /-- How many free values have been looked at (log entry 9). -/
  looks   : Nat
  /-- How many resets there have been (log entry 10). -/
  era     : Nat
deriving DecidableEq, Repr

/-- Why the machine stops. -/
inductive Fault where
  /-- Raised by a P edge, alone or coincident, by every controller transition, and by `FSM_RESERVED`, when the controller's
  key has the reserved state code `0b11`, to which the spec gives no next state (30_encoding.md R105, U4). Safe: the model stops where the hardware
  may go on. -/
  | reservedFsmState
deriving DecidableEq, Repr

/-- Why a step is refused: "its only refusals are illegal configurations and a partial reset" (60_exceptions.md R280). -/
inductive Refusal where
  /-- Raised by exec's arm of an operation that has no meaning yet; every operation has one, so nothing raises it. Safe. -/
  | notModelled (mnemonic : String)
  /-- Raised by step when the configuration is outside the legal values (00_scope.md R6, U7; log entry 16). Safe. -/
  | illegalConfig
  /-- Raised by step on a reset of one clock domain alone (70_reset_and_hazards.md R313, U6; log entry 15). Safe. -/
  | partialReset
deriving DecidableEq, Repr

/-- A step's outcome. -/
abbrev Result := Host.Outcome State Fault Refusal

/-- Ghost quantities after reset (R43). -/
def Ghost.reset : Ghost := ⟨0, 0, 0, 0, 0, 0, [], [], []⟩

/-- A queue after reset: every register 0, nothing written (R43, R310). -/
def Queue.reset (a : Nat) : Queue a := ⟨0, 0, 0, 0, 0, 0, 0, 0, [], Ghost.reset⟩

/-- The block after reset: both queues empty, `fsm.state = IDLE` (R43). -/
def Block.reset (a : Nat) : Block a := ⟨Queue.reset a, Queue.reset a, 0#2⟩

/-- No port answered. -/
def PortObs.blank : PortObs := ⟨false, false, none⟩

/-- Nothing observed. -/
def Obs.blank (a : Nat) : Obs a := ⟨none, none, PortObs.blank, PortObs.blank, none, []⟩

/-- The state after reset under a given configuration: the block as R43 says, nothing observed, nothing pending. -/
def State.resetWith (c : Cfg) : State := ⟨c, Block.reset c.a, [], Obs.blank c.a, [], false, 0, 0⟩

/-- The machine right after reset (R43), under the configuration of log entry 1. -/
def State.reset : State := State.resetWith Config.default

end Sys2Proof.Machine
end

