-- ==== Sys2Proof/Machine/Operands.lean ====
section
/-! DEFINITION. Operand forms: the Gray code (30_encoding.md section 1), pointer to storage index (R94), the state codes
(R95), the output vectors as bits (R97, R99), the decode keys (R100 to R104). -/

namespace Sys2Proof.Machine

/-! ### Gray code -/

/-- `bin2gray(b) = b ^ (b >> 1)` (R90). -/
def bin2gray {n : Nat} (b : BitVec n) : BitVec n := b ^^^ (b >>> 1)

/-- `g ^ (g >> 1) ^ ... ^ (g >> (k - 1))`. -/
def foldShifts {n : Nat} (g : BitVec n) : Nat → BitVec n
  | 0 => 0
  | k + 1 => g ^^^ (foldShifts g k >>> 1)

/-- `gray2bin(g)`: bit `i` is the exclusive or of the bits of `g` from the top down to `i` (R91). -/
def gray2bin {n : Nat} (g : BitVec n) : BitVec n := foldShifts g n

/-! ### Pointers -/

/-- The storage index of a pointer, its low `A` bits (R94). -/
def indexOf {a : Nat} (p : BitVec (a + 1)) : Nat := p.toNat % 2 ^ a

/-- Pointer increment, modulo `2^PW` (40_queue_ops.md R122). -/
def nextPtr {a : Nat} (p : BitVec (a + 1)) : BitVec (a + 1) := p + 1

/-- `DEPTH` as a level (R35). -/
def depthLevel (a : Nat) : BitVec (a + 1) := BitVec.ofNat (a + 1) (2 ^ a)

/-! ### State codes (R95) -/

/-- `IDLE = 0b00`. -/
def IDLE : BitVec 2 := 0b00#2
/-- `READING = 0b01`. -/
def READING : BitVec 2 := 0b01#2
/-- `WRITING = 0b10`. -/
def WRITING : BitVec 2 := 0b10#2
/-- The reserved code `0b11` (R105). -/
def RESERVED : BitVec 2 := 0b11#2

/-! ### Vectors -/

/-- The `PI` vector as bits (R96). -/
def packPI (v : PI) : BitVec 18 := BitVec.ofBool v.rxf ++ BitVec.ofBool v.txe ++ v.dataIn

/-- The `PO` vector as bits (R97): `bus_owner` is no wire. -/
def packPO (v : PO) : BitVec 21 :=
  BitVec.ofBool v.readStrobe ++ BitVec.ofBool v.writeStrobe ++ BitVec.ofBool v.outputEnable ++ v.byteEnable ++ v.dataOut

/-- The `HI` vector as bits (R98). -/
def packHI (v : HI) : BitVec 18 := BitVec.ofBool v.submitValid ++ BitVec.ofBool v.pollReady ++ v.submitWord

/-- The `HO` vector as bits (R99). -/
def packHO {a : Nat} (v : HO a) : BitVec (1 + 1 + 16 + (a + 1) + (a + 1)) :=
  BitVec.ofBool v.submitOk ++ BitVec.ofBool v.pollValid ++ v.pollWord ++ v.outWLevel ++ v.inRLevel

/-- Byte lane `i` of a word is bits `8i+7 .. 8i` (20_memory.md R65). -/
def lane (w : Word) (i : Nat) : BitVec 8 := w.extractLsb' (8 * i) 8

/-! ### Decode keys -/

/-- Key `FSM` (R100). -/
def fsmKey (st : BitVec 2) (rxf txe hasData hasSpace : Bool) : BitVec 6 :=
  st ++ BitVec.ofBool rxf ++ BitVec.ofBool txe ++ BitVec.ofBool hasData ++ BitVec.ofBool hasSpace

/-- Key `QW` (R101). -/
def qwKey (wEn space : Bool) : BitVec 2 := BitVec.ofBool wEn ++ BitVec.ofBool space

/-- Key `QR` (R102). -/
def qrKey (rEn data : Bool) : BitVec 2 := BitVec.ofBool rEn ++ BitVec.ofBool data

/-- Key `HOST` (R103). -/
def hostKey (v : HI) : BitVec 2 := BitVec.ofBool v.submitValid ++ BitVec.ofBool v.pollReady

/-- Key `STEP` (R104). -/
def stepKey (reset p h : Bool) : BitVec 3 := BitVec.ofBool reset ++ BitVec.ofBool p ++ BitVec.ofBool h

/-- A row applies when `(key & mask) == match` (30_encoding.md section 4). -/
def keySelects {n : Nat} (mask value key : BitVec n) : Bool := (key &&& mask) == value

/-- The nine defined rows of key `FSM` with their next states (R100). -/
def fsmRows : List (BitVec 6 × BitVec 6 × BitVec 2) :=
  [(0b111000#6, 0b001000#6, READING), (0b111110#6, 0b000110#6, WRITING), (0b111100#6, 0b000000#6, IDLE),
   (0b111110#6, 0b000100#6, IDLE), (0b111000#6, 0b011000#6, READING), (0b111000#6, 0b010000#6, IDLE),
   (0b110110#6, 0b100110#6, WRITING), (0b110100#6, 0b100000#6, IDLE), (0b110110#6, 0b100100#6, IDLE)]

/-- The next state of the first row the key selects; none for a reserved state code (R100, R169). -/
def nextFsmIn : List (BitVec 6 × BitVec 6 × BitVec 2) → BitVec 6 → Option (BitVec 2)
  | [], _ => none
  | (mask, value, next) :: rows, key => if keySelects mask value key then some next else nextFsmIn rows key

/-- The controller's next state for a key (R100, R160 to R169). -/
def nextFsm (key : BitVec 6) : Option (BitVec 2) := nextFsmIn fsmRows key

end Sys2Proof.Machine
end

