-- ==== Sys2Proof/Machine/Flags.lean ====
section
/-! DEFINITION. The status signals of a queue (10_state.md R35 to R38) and the controller's and harness's combinational
outputs (R39, 41_bridge_fsm.md R170 to R179, 42_harness.md R204, R205). None is stored; each is computed from the pre-edge
state and the tick's inputs. -/

namespace Sys2Proof.Machine

/-! ### Producer side (R35) -/

/-- `Q.w_level`, which is `fill_level` (R35, R37). -/
def Queue.wLevel {a : Nat} (q : Queue a) : BitVec (a + 1) := q.wptrBin - gray2bin q.wRsync2

/-- `Q.full` (R35). -/
def Queue.full {a : Nat} (q : Queue a) : Bool := q.wLevel == depthLevel a

/-- `Q.space_available` (R35). -/
def Queue.spaceAvailable {a : Nat} (q : Queue a) : Bool := !q.full

/-- `enq_fire` (40_queue_ops.md R120). -/
def Queue.enqFire {a : Nat} (q : Queue a) (wEn : Bool) : Bool := wEn && q.spaceAvailable

/-! ### Consumer side (R36) -/

/-- `Q.r_level` (R36). -/
def Queue.rLevel {a : Nat} (q : Queue a) : BitVec (a + 1) := gray2bin q.rWsync2 - q.rptrBin

/-- `Q.empty` (R36). -/
def Queue.empty {a : Nat} (q : Queue a) : Bool := q.rLevel == 0

/-- `Q.data_available` (R36). -/
def Queue.dataAvailable {a : Nat} (q : Queue a) : Bool := !q.empty

/-- `deq_fire` (40_queue_ops.md R121). -/
def Queue.deqFire {a : Nat} (q : Queue a) (rEn : Bool) : Bool := rEn && q.dataAvailable

/-! ### Storage reads (R38) -/

/-- The word listed at an index, if an enqueue has written it since reset. -/
def Memory.read : Memory → Nat → Option Word
  | [], _ => none
  | (j, v) :: m, i => if j = i then some v else Memory.read m i

/-- `MemRead(Q, i)` (00_scope.md R10): an entry not written since reset holds `unspecified(W)`, fixed until it is written
(10_state.md R30, U3; log entry 10). -/
def memRead (era : Nat) (id : QueueId) (m : Memory) (i : Nat) : Word := (Memory.read m i).getD (Config.storageWord era id i)

/-- The head entry, `MemRead(Q, Q.rptr_bin[A-1:0])` (20_memory.md R63). -/
def Queue.headWord {a : Nat} (era : Nat) (id : QueueId) (q : Queue a) : Word := memRead era id q.mem (indexOf q.rptrBin)

/-- `Q.r_data` (R38): the head entry while data is available, otherwise a free value of this look (D26; log entry 9). -/
def Queue.rData {a : Nat} (look era : Nat) (id : QueueId) (q : Queue a) : Word :=
  if q.dataAvailable then q.headWord era id else Config.unspecifiedWord look

/-! ### Controller outputs (41_bridge_fsm.md section 1) -/

/-- `in_ready` (R170). -/
def inReady : ReadGating → Bool → Bool
  | .gated, space => space
  | .ungated, _ => true

/-- `in_valid` (R179). -/
def inValid (st : BitVec 2) (rxf : Bool) : Bool := st == READING && rxf

/-- `read_strobe` (R171). -/
def readStrobe (g : ReadGating) (st : BitVec 2) (rxf space : Bool) : Bool := st == READING && rxf && inReady g space

/-- `INQ.w_en` (R173): a word crosses when `in_valid & in_ready` (R179). -/
def inqWEn (g : ReadGating) (st : BitVec 2) (rxf space : Bool) : Bool := inValid st rxf && inReady g space

/-- `write_strobe` (R178). -/
def writeStrobe (st : BitVec 2) (txe hasData : Bool) : Bool := st == WRITING && txe && hasData

/-- `OUTQ.r_en` (R174). -/
def outqREn (st : BitVec 2) (txe hasData : Bool) : Bool := writeStrobe st txe hasData

/-- `output_enable` (R177). -/
def outputEnable (st : BitVec 2) : Bool := st == WRITING

/-- `byte_enable` (R175, D17). -/
def byteEnable (st : BitVec 2) : Lanes := if st == WRITING then allLanes else 0

/-- `data_out` (R176, D17). -/
def dataOut (st : BitVec 2) (rData : Word) : Word := if st == WRITING then rData else 0

/-- `bus_owner` (R177). The reserved code has no outputs (R169), and no step shows this function's value for it. -/
def busOwner (st : BitVec 2) : BusOwner :=
  if st == READING then .peripheral else if st == WRITING then .controller else .none

/-- The controller's output vector (R97) from its state, its four Boolean inputs and the outbound head word. -/
def controllerPO (g : ReadGating) (st : BitVec 2) (rxf txe hasData hasSpace : Bool) (rData : Word) : PO where
  readStrobe   := readStrobe g st rxf hasSpace
  writeStrobe  := writeStrobe st txe hasData
  outputEnable := outputEnable st
  byteEnable   := byteEnable st
  dataOut      := dataOut st rData
  busOwner     := busOwner st

/-! ### Signals of the whole block -/

/-- `outbound_has_data = OUTQ.data_available` (42_harness.md R208). -/
def State.outHasData (s : State) : Bool := s.blk.outq.dataAvailable

/-- `inbound_has_space = INQ.space_available` (R208). -/
def State.inHasSpace (s : State) : Bool := s.blk.inq.spaceAvailable

/-- The word on the outbound queue's consumer port at this step's P edge. -/
def State.outWord (s : State) : Word := s.blk.outq.rData s.looks s.era .outq

/-- The word on the inbound queue's consumer port at this step's H edge: a look of its own. -/
def State.inWord (s : State) : Word := s.blk.inq.rData (s.looks + 1) s.era .inq

/-- The `FSM` key of a P tick with the given flow-control inputs (30_encoding.md R100). -/
def State.key (s : State) (rxf txe : Bool) : BitVec 6 := fsmKey s.blk.fsm rxf txe s.outHasData s.inHasSpace

/-- The `PO` vector of a P tick (42_harness.md R200). -/
def State.po (s : State) (rxf txe : Bool) : PO :=
  controllerPO s.cfg.gating s.blk.fsm rxf txe s.outHasData s.inHasSpace s.outWord

/-- `INQ.w_en` of a P tick (R173). -/
def State.wEn (s : State) (rxf : Bool) : Bool := inqWEn s.cfg.gating s.blk.fsm rxf s.inHasSpace

/-- `OUTQ.r_en` of a P tick (R174). -/
def State.rEn (s : State) (txe : Bool) : Bool := outqREn s.blk.fsm txe s.outHasData

/-- The `HO` vector of an H tick (R99, 42_harness.md R204, R205, R207). -/
def State.ho (s : State) (v : HI) : HO s.cfg.a where
  submitOk  := v.submitValid && s.blk.outq.spaceAvailable
  pollValid := s.blk.inq.dataAvailable
  pollWord  := s.inWord
  outWLevel := s.blk.outq.wLevel
  inRLevel  := s.blk.inq.rLevel

/-- `poll()`'s result (42_harness.md R205). -/
def HO.pollResult {a : Nat} (v : HO a) : Option Word := if v.pollValid then some v.pollWord else none

/-! ### Error events (60_exceptions.md R281, R282, R285) -/

/-- A producer port's event: an enqueue offered while there is no space (R281). -/
def producerEvents {a : Nat} (id : QueueId) (q : Queue a) (wEn : Bool) : List (Event × QueueId) :=
  if wEn && !q.spaceAvailable then [(.capacityViolation, id)] else []

/-- A consumer port's event: a dequeue requested while no data is available (R282). -/
def consumerEvents {a : Nat} (id : QueueId) (q : Queue a) (rEn : Bool) : List (Event × QueueId) :=
  if rEn && !q.dataAvailable then [(.emptyDequeue, id)] else []

/-- Whether this P tick loses the peripheral's word: strobed while the inbound queue has no space (R285). -/
def State.drops (s : State) (rxf : Bool) : Bool := s.wEn rxf && !s.inHasSpace

end Sys2Proof.Machine
end

