-- ==== Sys2Proof/Machine/Ops.lean ====
section
/-! DEFINITION. The named operations over the state: storage, the two sides of a queue, a P edge, an H edge, both at
once, reset. The block takes no exception and returns from none (60_exceptions.md R280, R289, R290): what R289 puts in its
place, a request that fails leaves the registers as the tick without it would and is reported in the same tick, is what
the gated operations below do. -/

namespace Sys2Proof.Machine

/-! ### Storage -/

/-- `MemWrite(Q, i, w)` (00_scope.md R10, 20_memory.md R62): keeps the indices strictly rising. -/
def Memory.write : Memory → Nat → Word → Memory
  | [], i, w => [(i, w)]
  | (j, v) :: m, i, w =>
    if i < j then (i, w) :: (j, v) :: m else if i = j then (i, w) :: m else (j, v) :: Memory.write m i w

/-- The indices are strictly rising, at least `lo` and below `depth`. -/
def Memory.wfFrom (depth : Nat) : Nat → Memory → Bool
  | _, [] => true
  | lo, (i, _) :: m => decide (lo ≤ i) && decide (i < depth) && Memory.wfFrom depth (i + 1) m

/-- The canonical form: strictly rising indices of a storage of `depth` entries (20_memory.md R60). -/
def Memory.wf (depth : Nat) (m : Memory) : Bool := Memory.wfFrom depth 0 m

/-! ### Ghost updates -/

/-- The ghost lines of `ENQ` (40_queue_ops.md R130). -/
def Ghost.enq (g : Ghost) (w : Word) : Ghost :=
  { g with wc := g.wc + 1, contents := g.contents ++ [w], enqueued := g.enqueued ++ [w] }

/-- The ghost lines of `DEQ` (40_queue_ops.md R135). -/
def Ghost.deq (g : Ghost) (w : Word) : Ghost :=
  { g with rc := g.rc + 1, contents := g.contents.tail, dequeued := g.dequeued ++ [w] }

/-- The ghosts of the producer's synchroniser (44_invariants.md R250). -/
def Ghost.syncR (g : Ghost) (sample : Nat) : Ghost := { g with rs1 := sample, rs2 := g.rs1 }

/-- The ghosts of the consumer's synchroniser (44_invariants.md R250). -/
def Ghost.syncW (g : Ghost) (sample : Nat) : Ghost := { g with ws1 := sample, ws2 := g.ws1 }

/-! ### Producer side (40_queue_ops.md section 2) -/

/-- `ENQ`'s update (R130). -/
def Queue.enqueue {a : Nat} (q : Queue a) (w : Word) : Queue a :=
  { q with
    mem      := Memory.write q.mem (indexOf q.wptrBin) w
    wptrBin  := nextPtr q.wptrBin
    wptrGray := bin2gray (nextPtr q.wptrBin)
    ghost    := q.ghost.enq w }

/-- The operation key `QW` selects: `ENQ` at `11`, no change at `10` and `0s` (R130 to R132). -/
def Queue.producerOp {a : Nat} (q : Queue a) (wEn : Bool) (w : Word) : Queue a :=
  if q.enqFire wEn then q.enqueue w else q

/-- `SYNC_R2W`'s update with the value its first stage captures and that value's ghost count (R133, R123). -/
def Queue.shiftR2W {a : Nat} (q : Queue a) (sample : BitVec (a + 1)) (count : Nat) : Queue a :=
  { q with wRsync2 := q.wRsync1, wRsync1 := sample, ghost := q.ghost.syncR count }

/-- The producer tick with no coincident consumer edge (R134): the sample is the current read pointer. The key sees the
pre-edge `w_rsync2`: `producerOp` leaves the synchroniser alone and runs first. -/
def Queue.producerTick {a : Nat} (q : Queue a) (wEn : Bool) (w : Word) : Queue a :=
  (q.producerOp wEn w).shiftR2W q.rptrGray q.ghost.rc

/-! ### Consumer side (40_queue_ops.md section 3) -/

/-- `DEQ`'s update (R135); `w` is the word it returns, read before the edge. -/
def Queue.dequeue {a : Nat} (q : Queue a) (w : Word) : Queue a :=
  { q with
    rptrBin  := nextPtr q.rptrBin
    rptrGray := bin2gray (nextPtr q.rptrBin)
    ghost    := q.ghost.deq w }

/-- The operation key `QR` selects: `DEQ` at `11`, no change at `10` and `0a` (R135 to R137). -/
def Queue.consumerOp {a : Nat} (q : Queue a) (rEn : Bool) (w : Word) : Queue a :=
  if q.deqFire rEn then q.dequeue w else q

/-- `SYNC_W2R`'s update with the value its first stage captures and that value's ghost count (R138, R123). -/
def Queue.shiftW2R {a : Nat} (q : Queue a) (sample : BitVec (a + 1)) (count : Nat) : Queue a :=
  { q with rWsync2 := q.rWsync1, rWsync1 := sample, ghost := q.ghost.syncW count }

/-- The consumer tick with no coincident producer edge (R139). -/
def Queue.consumerTick {a : Nat} (q : Queue a) (rEn : Bool) (w : Word) : Queue a :=
  (q.consumerOp rEn w).shiftW2R q.wptrGray q.ghost.wc

/-! ### Both sides at once (40_queue_ops.md R140) -/

/-- A producer and a consumer edge at one instant. Both keys see the pre-edge state; a draw that is true captures the
source pointer after this same edge, false before it (R123, 42_harness.md R202). `dW` is the producer's draw of the read
pointer, `dR` the consumer's draw of the write pointer, `out` the word on the consumer port before the edge. -/
def Queue.bothTick {a : Nat} (q : Queue a) (wEn : Bool) (w : Word) (rEn : Bool) (out : Word) (dW dR : Bool) : Queue a :=
  let q' := (q.producerOp wEn w).consumerOp rEn out
  (q'.shiftR2W (if dW then q'.rptrGray else q.rptrGray) (if dW then q'.ghost.rc else q.ghost.rc)).shiftW2R
    (if dR then q'.wptrGray else q.wptrGray) (if dR then q'.ghost.wc else q.ghost.wc)

/-! ### State updates -/

/-- The named queue of a block. -/
def Block.queue {a : Nat} (b : Block a) : QueueId → Queue a
  | .inq => b.inq
  | .outq => b.outq

/-- Replace the named queue of a block. -/
def Block.setQueue {a : Nat} (b : Block a) (id : QueueId) (q : Queue a) : Block a :=
  match id with
  | .inq => { b with inq := q }
  | .outq => { b with outq := q }

/-- The named queue. -/
def State.queue (s : State) (id : QueueId) : Queue s.cfg.a := s.blk.queue id

/-- Replace the named queue. -/
def State.setQueue (s : State) (id : QueueId) (q : Queue s.cfg.a) : State := { s with blk := s.blk.setQueue id q }

/-- Replace `fsm.state`. -/
def State.setFsm (s : State) (st : BitVec 2) : State := { s with blk := { s.blk with fsm := st } }

/-- What an operation leaves: the block after it and its outputs; the two free values it may look at are behind (log
entries 9 and 12). -/
def State.commit (s : State) (b : Block s.cfg.a) (o : Obs s.cfg.a) : State :=
  { s with blk := b, obs := o, looks := s.looks + 2 }

/-- Record the words a P edge loses (60_exceptions.md R285). -/
def State.drop (s : State) (ws : List Word) : State := { s with dropped := s.dropped ++ ws }

/-- An answer of the producer port (40_queue_ops.md R120). -/
def producerObs (fire : Bool) : PortObs := ⟨fire, false, none⟩

/-- An answer of the consumer port: the word only when the dequeue fires (R121, R135, R136). -/
def consumerObs (fire : Bool) (w : Word) : PortObs := ⟨false, fire, if fire then some w else none⟩

/-- The observation of a port operation on one queue. -/
def portObs (a : Nat) (id : QueueId) (p : PortObs) (es : List (Event × QueueId)) : Obs a :=
  match id with
  | .inq => { Obs.blank a with inq := p, events := es }
  | .outq => { Obs.blank a with outq := p, events := es }

/-- An operation its key does not select is not performed: no register changes (00_scope.md R9; log entry 7). -/
def State.unselected (s : State) : State := s.commit s.blk (Obs.blank s.cfg.a)

/-- Perform an operation where its key selects it. Every key has a defined effect (60_exceptions.md R280), so elsewhere it
is not performed and nothing stops. -/
def State.perform (s : State) (selected : Bool) (t : State) : Result := .next (if selected then t else s.unselected)

/-! ### Controller transitions (41_bridge_fsm.md section 2) -/

/-- Perform a transition where the controller's key matches its row. A key with the reserved state code has no row: the
one fault (30_encoding.md R105, log entry 11). -/
def State.performRow (s : State) (mask value key : BitVec 6) (t : State) : Result :=
  match nextFsm key with
  | none => .fault .reservedFsmState
  | some _ => s.perform (keySelects mask value key) t

/-- The observation of the controller alone: its output vector (R170 to R179). -/
def State.controllerObs (s : State) (rxf txe : Bool) : Obs s.cfg.a := { Obs.blank s.cfg.a with po := some (s.po rxf txe) }

/-- A transition that moves no word: the next state and the outputs of this tick. -/
def State.transition (s : State) (rxf txe : Bool) (next : BitVec 2) : State :=
  s.commit { s.blk with fsm := next } (s.controllerObs rxf txe)

/-- The events of a P edge on the inbound queue: a capacity violation that loses the peripheral's word (R281, R285). -/
def State.inboundEvents (s : State) (rxf : Bool) : List (Event × QueueId) :=
  producerEvents .inq s.blk.inq (s.wEn rxf) ++ (if s.drops rxf then [(.inboundDrop, .inq)] else [])

/-- `FSM_READ_CONT` (R164): the outputs, and the inbound queue's producer tick with the `w_en` they give. -/
def State.readWord (s : State) (txe : Bool) (w : Word) : State :=
  State.drop
    (s.commit { s.blk with fsm := READING, inq := s.blk.inq.producerTick (s.wEn true) w }
      { s.controllerObs true txe with
        inq    := producerObs (s.blk.inq.enqFire (s.wEn true))
        events := s.inboundEvents true })
    (if s.drops true then [w] else [])

/-- `FSM_WRITE_CONT` (R166): the outputs, and the outbound queue's consumer tick with `r_en = 1`. -/
def State.writeWord (s : State) (rxf : Bool) : State :=
  s.commit { s.blk with fsm := WRITING, outq := s.blk.outq.consumerTick true s.outWord }
    { s.controllerObs rxf true with
      outq   := consumerObs (s.blk.outq.deqFire true) s.outWord
      events := consumerEvents .outq s.blk.outq true }

/-! ### Edges (42_harness.md section 2) -/

/-- The observation of a P edge. -/
def State.peripheralObs (s : State) (v : PI) : Obs s.cfg.a :=
  { s.controllerObs v.rxf v.txe with
    inq    := producerObs (s.blk.inq.enqFire (s.wEn v.rxf))
    outq   := consumerObs (s.blk.outq.deqFire (s.rEn v.txe)) s.outWord
    events := s.inboundEvents v.rxf ++ consumerEvents .outq s.blk.outq (s.rEn v.txe) }

/-- The words a P edge loses. -/
def State.lost (s : State) (v : PI) : List Word := if s.drops v.rxf then [v.dataIn] else []

/-- `TICK_P` (R200): the transition the key selects, the inbound queue's producer tick, the outbound queue's consumer
tick, all from pre-edge values. A reserved state code has no transition (R105). -/
def State.peripheralTick (s : State) (v : PI) : Result :=
  match nextFsm (s.key v.rxf v.txe) with
  | none => .fault .reservedFsmState
  | some st =>
    .next (State.drop
      (s.commit
        { fsm  := st
          inq  := s.blk.inq.producerTick (s.wEn v.rxf) v.dataIn
          outq := s.blk.outq.consumerTick (s.rEn v.txe) s.outWord }
        (s.peripheralObs v))
      (s.lost v))

/-- The observation of an H edge. -/
def State.hostObs (s : State) (v : HI) : Obs s.cfg.a :=
  { Obs.blank s.cfg.a with
    ho     := some (s.ho v)
    outq   := producerObs (s.blk.outq.enqFire v.submitValid)
    inq    := consumerObs (s.blk.inq.deqFire v.pollReady) s.inWord
    events := producerEvents .outq s.blk.outq v.submitValid ++ consumerEvents .inq s.blk.inq v.pollReady }

/-- `TICK_H` (R201): the outbound queue's producer tick and the inbound queue's consumer tick. -/
def State.hostTick (s : State) (v : HI) : State :=
  s.commit
    { s.blk with
      outq := s.blk.outq.producerTick v.submitValid v.submitWord
      inq  := s.blk.inq.consumerTick v.pollReady s.inWord }
    (s.hostObs v)

/-- The observation of a coincident edge: both halves' answers, queue by queue. -/
def State.coincidentObs (s : State) (v : PI) (h : HI) : Obs s.cfg.a where
  po     := some (s.po v.rxf v.txe)
  ho     := some (s.ho h)
  inq    := { consumerObs (s.blk.inq.deqFire h.pollReady) s.inWord with enqFire := s.blk.inq.enqFire (s.wEn v.rxf) }
  outq   := { consumerObs (s.blk.outq.deqFire (s.rEn v.txe)) s.outWord with enqFire := s.blk.outq.enqFire h.submitValid }
  level  := none
  events := (s.peripheralObs v).events ++ (s.hostObs h).events

/-- `TICK_PH` (R202): both halves from the common pre-edge state, the four samples drawn. -/
def State.coincidentTick (s : State) (v : PI) (h : HI) (d : Draws) : Result :=
  match nextFsm (s.key v.rxf v.txe) with
  | none => .fault .reservedFsmState
  | some st =>
    .next (State.drop
      (s.commit
        { fsm  := st
          inq  := s.blk.inq.bothTick (s.wEn v.rxf) v.dataIn h.pollReady s.inWord d.d1 d.d4
          outq := s.blk.outq.bothTick h.submitValid h.submitWord (s.rEn v.txe) s.outWord d.d3 d.d2 }
        (s.coincidentObs v h))
      (s.lost v))

/-- `RESET` (70_reset_and_hazards.md R310): every register of both domains, and the ghosts; the storage holds unspecified
words from now on, those of the next era (log entry 10). The pending words are the environment's and stay. -/
def State.resetBlock (s : State) : State :=
  { s.commit (Block.reset s.cfg.a) (Obs.blank s.cfg.a) with dropped := [], era := s.era + 1 }

/-- The observation of `FILL_LEVEL` (42_harness.md R207). -/
def State.levelObs (s : State) (id : QueueId) : Obs s.cfg.a :=
  { Obs.blank s.cfg.a with level := some ⟨id, (s.queue id).wLevel, (s.queue id).rLevel⟩ }

/-! ### Selecting an operation -/

/-- What the outside world can present to the running block: a tick or a reset (42_harness.md R203, 43_environment.md
R237), a host call, which is a tick (R204 to R206), or a reading of the levels, which changes no register (R207). The other
rows are parts of a tick. -/
def isBlockStep : Instr → Bool
  | .tickP _ => true
  | .tickH _ => true
  | .tickPH _ _ _ => true
  | .reset _ _ => true
  | .advance _ => true
  | .submit _ _ => true
  | .poll _ _ => true
  | .fsmIdleRead _ _ _ => false
  | .fsmIdleWrite _ => false
  | .fsmIdleHoldT0 _ _ => false
  | .fsmIdleHoldD0 _ => false
  | .fsmReadCont _ _ _ _ => false
  | .fsmReadExit _ _ _ => false
  | .fsmWriteCont _ _ => false
  | .fsmWriteExitT0 _ _ _ => false
  | .fsmWriteExitD0 _ _ => false
  | .fsmReserved _ _ _ _ => false
  | .enq _ _ => false
  | .enqRefused _ _ => false
  | .prodIdle _ _ => false
  | .syncR2W _ _ _ => false
  | .deq _ => false
  | .deqEmpty _ => false
  | .consIdle _ _ => false
  | .syncW2R _ _ _ => false
  | .fillLevel _ => true

/-- Present an operation word first. -/
def State.present (s : State) (w : OpWord) : State := { s with pending := w :: s.pending }

/-- Let a row that is only part of a tick be performed by itself (log entry 6). -/
def State.allow (s : State) (i : Instr) : State := { s with lone := s.lone || !isBlockStep i }

/-- Make `outbound_has_data` be `b` by the consumer's view of the write pointer, if it is not so already. -/
def Queue.forceData {a : Nat} (q : Queue a) (b : Bool) : Queue a :=
  if q.dataAvailable == b then q
  else { q with rWsync2 := bin2gray (if b then nextPtr q.rptrBin else q.rptrBin) }

/-- Make `space_available` be `b` by the producer's view of the read pointer, if it is not so already. -/
def Queue.forceSpace {a : Nat} (q : Queue a) (b : Bool) : Queue a :=
  if q.spaceAvailable == b then q
  else { q with wRsync2 := bin2gray (if b then q.wptrBin else q.wptrBin - depthLevel a) }

/-- The state with the bits an operation's key tests, so that its key selects it (log entry 14): the key of a transition
holds `fsm.state` and `outbound_has_data`, that of a queue port the queue's flag. -/
def State.selecting (s : State) : Instr → State
  | .fsmIdleRead _ _ _ => s.setFsm IDLE
  | .fsmIdleWrite _ => (s.setFsm IDLE).setQueue .outq (s.blk.outq.forceData true)
  | .fsmIdleHoldT0 _ _ => s.setFsm IDLE
  | .fsmIdleHoldD0 _ => (s.setFsm IDLE).setQueue .outq (s.blk.outq.forceData false)
  | .fsmReadCont _ _ _ _ => s.setFsm READING
  | .fsmReadExit _ _ _ => s.setFsm READING
  | .fsmWriteCont _ _ => (s.setFsm WRITING).setQueue .outq (s.blk.outq.forceData true)
  | .fsmWriteExitT0 _ _ _ => s.setFsm WRITING
  | .fsmWriteExitD0 _ _ => (s.setFsm WRITING).setQueue .outq (s.blk.outq.forceData false)
  | .fsmReserved _ _ _ _ => s.setFsm RESERVED
  | .enq q _ => s.setQueue q ((s.queue q).forceSpace true)
  | .enqRefused q _ => s.setQueue q ((s.queue q).forceSpace false)
  | .prodIdle _ _ => s
  | .syncR2W _ _ _ => s
  | .deq q => s.setQueue q ((s.queue q).forceData true)
  | .deqEmpty q => s.setQueue q ((s.queue q).forceData false)
  | .consIdle _ _ => s
  | .syncW2R _ _ _ => s
  | .submit _ _ => s
  | .poll _ _ => s
  | .advance _ => s
  | .fillLevel _ => s
  | .tickP _ => s
  | .tickH _ => s
  | .tickPH _ _ _ => s
  | .reset _ _ => s

end Sys2Proof.Machine
end

