-- ==== Sys2Proof/Machine/Fsm.lean ====
section
/-! DEFINITION. The Bridge Controller's transitions, one per row of key `FSM` (41_bridge_fsm.md section 2). Each is
performed when the key of the state, with the inputs the operation stands for, matches its row's tested bits; untested
letters are ignored (30_encoding.md section 4). A transition touches the queues only where its rule says so; the whole P
tick is `TICK_P` (log entry 6). -/

namespace Sys2Proof.Machine

/-- `FSM_IDLE_READ` (R160). -/
def execFsmIdleRead (t _d _s : Bool) (s : State) : Result :=
  s.performRow 0b111000#6 0b001000#6 (s.key true t) (s.transition true t READING)

/-- `FSM_IDLE_WRITE` (R161). -/
def execFsmIdleWrite (_s : Bool) (s : State) : Result :=
  s.performRow 0b111110#6 0b000110#6 (s.key false true) (s.transition false true WRITING)

/-- `FSM_IDLE_HOLD_T0` (R162). -/
def execFsmIdleHoldT0 (_d _s : Bool) (s : State) : Result :=
  s.performRow 0b111100#6 0b000000#6 (s.key false false) (s.transition false false IDLE)

/-- `FSM_IDLE_HOLD_D0` (R163). -/
def execFsmIdleHoldD0 (_s : Bool) (s : State) : Result :=
  s.performRow 0b111110#6 0b000100#6 (s.key false true) (s.transition false true IDLE)

/-- `FSM_READ_CONT` (R164). -/
def execFsmReadCont (t _d _s : Bool) (dataIn : Word) (s : State) : Result :=
  s.performRow 0b111000#6 0b011000#6 (s.key true t) (s.readWord t dataIn)

/-- `FSM_READ_EXIT` (R165). -/
def execFsmReadExit (t _d _s : Bool) (s : State) : Result :=
  s.performRow 0b111000#6 0b010000#6 (s.key false t) (s.transition false t IDLE)

/-- `FSM_WRITE_CONT` (R166). -/
def execFsmWriteCont (r _s : Bool) (s : State) : Result :=
  s.performRow 0b110110#6 0b100110#6 (s.key r true) (s.writeWord r)

/-- `FSM_WRITE_EXIT_T0` (R167). -/
def execFsmWriteExitT0 (r _d _s : Bool) (s : State) : Result :=
  s.performRow 0b110100#6 0b100000#6 (s.key r false) (s.transition r false IDLE)

/-- `FSM_WRITE_EXIT_D0` (R168). -/
def execFsmWriteExitD0 (r _s : Bool) (s : State) : Result :=
  s.performRow 0b110110#6 0b100100#6 (s.key r true) (s.transition r true IDLE)

/-- `FSM_RESERVED` (R169): "the spec gives it no next state and no outputs"; "a bit-level model treats reaching it as a
fault" (R105, U4). -/
def execFsmReserved (_r _t _d _s : Bool) (_ : State) : Result := .fault .reservedFsmState

end Sys2Proof.Machine
end

