-- ==== Sys2Proof/Machine/Harness.lean ====
section
/-! DEFINITION. The host-facing operations (42_harness.md section 3). "A `submit` or a `poll` is itself performed at a
`TICK_H`" (R206): each is that tick with its slot used (log entry 8). -/

namespace Sys2Proof.Machine

/-- `SUBMIT` (R204): the H tick with the submit slot used; `p` says whether the poll slot is used too (R103). -/
def execSubmit (p : Bool) (word : Word) (s : State) : Result := .next (s.hostTick ⟨true, p, word⟩)

/-- `POLL` (R205): the H tick with the poll slot used; `v` says whether the submit slot is used too (R103). -/
def execPoll (v : Bool) (word : Word) (s : State) : Result := .next (s.hostTick ⟨v, true, word⟩)

/-- `ADVANCE` (R206): the host's is `TICK_H` with both slots unused, the peripheral's is `TICK_P`. -/
def execAdvance (caller : Caller) (s : State) : Result :=
  match caller with
  | .host => .next (s.hostTick ⟨false, false, 0#16⟩)
  | .peripheral v => s.peripheralTick v

/-- `FILL_LEVEL` (R207): a pure read. -/
def execFillLevel (q : QueueId) (s : State) : Result := .next (s.commit s.blk (s.levelObs q))

end Sys2Proof.Machine
end

