-- ==== Sys2Proof/Machine/QueuePorts.lean ====
section
/-! DEFINITION. The port operations of a Dual-Clock Queue (40_queue_ops.md), each exactly its rule's update. A producer
tick is one of `ENQ`, `ENQ_REFUSED`, `PROD_IDLE` with `SYNC_R2W` (R134), a consumer tick one of `DEQ`, `DEQ_EMPTY`,
`CONS_IDLE` with `SYNC_W2R` (R139); alone, an operation leaves the rest of its tick out (log entry 6). -/

namespace Sys2Proof.Machine

/-- `ENQ` (R130). -/
def execEnq (q : QueueId) (w : Word) (s : State) : Result :=
  s.perform (keySelects 0b11#2 0b11#2 (qwKey true (s.queue q).spaceAvailable))
    (s.commit (s.blk.setQueue q ((s.queue q).enqueue w)) (portObs s.cfg.a q (producerObs true) []))

/-- `ENQ_REFUSED` (R131): no register changes; `enq_fire = 0`. -/
def execEnqRefused (q : QueueId) (_w : Word) (s : State) : Result :=
  s.perform (keySelects 0b11#2 0b10#2 (qwKey true (s.queue q).spaceAvailable))
    (s.commit s.blk (portObs s.cfg.a q (producerObs false) [(.capacityViolation, q)]))

/-- `PROD_IDLE` (R132): nothing changes because of it. -/
def execProdIdle (q : QueueId) (_s : Bool) (s : State) : Result :=
  .next (s.commit s.blk (portObs s.cfg.a q (producerObs false) []))

/-- `SYNC_R2W` (R133). -/
def execSyncR2W (q : QueueId) (_e _s : Bool) (s : State) : Result :=
  .next (s.commit (s.blk.setQueue q ((s.queue q).shiftR2W (s.queue q).rptrGray (s.queue q).ghost.rc)) (Obs.blank s.cfg.a))

/-- `DEQ` (R135). -/
def execDeq (q : QueueId) (s : State) : Result :=
  s.perform (keySelects 0b11#2 0b11#2 (qrKey true (s.queue q).dataAvailable))
    (s.commit (s.blk.setQueue q ((s.queue q).dequeue ((s.queue q).headWord s.era q)))
      (portObs s.cfg.a q (consumerObs true ((s.queue q).headWord s.era q)) []))

/-- `DEQ_EMPTY` (R136): no register changes, no word; `deq_fire = 0`. -/
def execDeqEmpty (q : QueueId) (s : State) : Result :=
  s.perform (keySelects 0b11#2 0b10#2 (qrKey true (s.queue q).dataAvailable))
    (s.commit s.blk (portObs s.cfg.a q ⟨false, false, none⟩ [(.emptyDequeue, q)]))

/-- `CONS_IDLE` (R137): nothing changes because of it. -/
def execConsIdle (q : QueueId) (_a : Bool) (s : State) : Result :=
  .next (s.commit s.blk (portObs s.cfg.a q ⟨false, false, none⟩ []))

/-- `SYNC_W2R` (R138). -/
def execSyncW2R (q : QueueId) (_e _a : Bool) (s : State) : Result :=
  .next (s.commit (s.blk.setQueue q ((s.queue q).shiftW2R (s.queue q).wptrGray (s.queue q).ghost.wc)) (Obs.blank s.cfg.a))

end Sys2Proof.Machine
end

