-- ==== Sys2Proof/Machine/StepKinds.lean ====
section
/-! DEFINITION. The step kinds of the whole block (30_encoding.md R104; 42_harness.md section 2; 70_reset_and_hazards.md
R310). -/

namespace Sys2Proof.Machine

/-- `TICK_P` (R200). -/
def execTickP (v : PI) (s : State) : Result := s.peripheralTick v

/-- `TICK_H` (R201). -/
def execTickH (v : HI) (s : State) : Result := .next (s.hostTick v)

/-- `TICK_PH` (R202). -/
def execTickPH (v : PI) (h : HI) (d : Draws) (s : State) : Result := s.coincidentTick v h d

/-- `RESET` (R310). It wins over a coincident edge: `p` and `h` have no effect. -/
def execReset (_p _h : Bool) (s : State) : Result := .next s.resetBlock

end Sys2Proof.Machine
end

