-- ==== Sys2Proof/Machine/Dispatch.lean ====
section
/-! DEFINITION. One arm per operation. -/

namespace Sys2Proof.Machine

def exec (i : Instr) (s : State) : Host.Outcome State Fault Refusal :=
  match i with
  | .fsmIdleRead t d sp => Sys2Proof.Machine.execFsmIdleRead t d sp s
  | .fsmIdleWrite sp => Sys2Proof.Machine.execFsmIdleWrite sp s
  | .fsmIdleHoldT0 d sp => Sys2Proof.Machine.execFsmIdleHoldT0 d sp s
  | .fsmIdleHoldD0 sp => Sys2Proof.Machine.execFsmIdleHoldD0 sp s
  | .fsmReadCont t d sp w => Sys2Proof.Machine.execFsmReadCont t d sp w s
  | .fsmReadExit t d sp => Sys2Proof.Machine.execFsmReadExit t d sp s
  | .fsmWriteCont r sp => Sys2Proof.Machine.execFsmWriteCont r sp s
  | .fsmWriteExitT0 r d sp => Sys2Proof.Machine.execFsmWriteExitT0 r d sp s
  | .fsmWriteExitD0 r sp => Sys2Proof.Machine.execFsmWriteExitD0 r sp s
  | .fsmReserved r t d sp => Sys2Proof.Machine.execFsmReserved r t d sp s
  | .enq q w => Sys2Proof.Machine.execEnq q w s
  | .enqRefused q w => Sys2Proof.Machine.execEnqRefused q w s
  | .prodIdle q sp => Sys2Proof.Machine.execProdIdle q sp s
  | .syncR2W q e sp => Sys2Proof.Machine.execSyncR2W q e sp s
  | .deq q => Sys2Proof.Machine.execDeq q s
  | .deqEmpty q => Sys2Proof.Machine.execDeqEmpty q s
  | .consIdle q a => Sys2Proof.Machine.execConsIdle q a s
  | .syncW2R q e a => Sys2Proof.Machine.execSyncW2R q e a s
  | .submit p w => Sys2Proof.Machine.execSubmit p w s
  | .poll v w => Sys2Proof.Machine.execPoll v w s
  | .advance c => Sys2Proof.Machine.execAdvance c s
  | .fillLevel q => Sys2Proof.Machine.execFillLevel q s
  | .tickP v => Sys2Proof.Machine.execTickP v s
  | .tickH v => Sys2Proof.Machine.execTickH v s
  | .tickPH v h d => Sys2Proof.Machine.execTickPH v h d s
  | .reset p h => Sys2Proof.Machine.execReset p h s

end Sys2Proof.Machine
end

