-- ==== Sys2Proof/Machine/Step.lean ====
section
/-! DEFINITION. One step: the environment's next operation word is decoded and performed (42_harness.md R203; log entry
5). -/

namespace Sys2Proof.Machine

/-- One step. An illegal configuration is refused (00_scope.md R6). With nothing pending there is no edge and no reset, the
key `STEP = 000`: "no step: no register changes" (30_encoding.md R104). Otherwise the first pending word is taken off, and:

- what the outside world can present, a tick, a reset or a host call, is performed;
- a row that is only part of a tick happens inside one and nowhere else ("apply `RESET` [...] and nothing else",
  43_environment.md R237): its word presents no edge, unless `lone` says that it is to be run by itself (log entry 6);
- a word that is no operation presents no edge either, so no register changes (log entry 3);
- a reset of one domain alone is refused: with the illegal configuration, the two refusals of 60_exceptions.md R280. -/
def step (s : State) : Host.Outcome State Fault Refusal :=
  if s.cfg.legal then
    match s.pending with
    | [] => .next s
    | w :: rest =>
      match decode w with
      | .op i => if s.lone || isBlockStep i then exec i { s with pending := rest } else .next { s with pending := rest }
      | .noStep => .next { s with pending := rest }
      | .bad .partialReset => .refused .partialReset
      | .bad .unknownPort => .next { s with pending := rest }
      | .bad .undefinedKey => .next { s with pending := rest }
      | .bad .reservedBits => .next { s with pending := rest }
  else .refused .illegalConfig

/-- The row's word presented first, in a state whose key bits select its operation and which lets it be run by itself (log
entries 6 and 14). -/
def State.withFetchWord (s : State) (nbits w : Nat) : State :=
  match decodeTableWord nbits w with
  | some i => ((s.selecting i).allow i).present (tableWord nbits w)
  | none => s.present (tableWord nbits w)

end Sys2Proof.Machine
end

