-- ==== Sys2Proof/Machine/Trace.lean ====
section
/-! DEFINITION. The trace language of 30_encoding.md section 6 as abstract syntax: "it is notation, not hardware" (D23). A
trace is loaded as the operation words of its lines. -/

namespace Sys2Proof.Machine

/-- The lines of R110 and the pseudo-lines of R111. -/
inductive TraceLine where
  /-- `RESET`. -/
  | reset
  /-- `P rxf= txe= data=`, and the peripheral domain's `advance()`. -/
  | p (v : PI)
  /-- `H submit`, `H poll`, `H submit poll`, `H idle`. -/
  | h (v : HI)
  /-- `PH ... / ... / draws=`. -/
  | ph (v : PI) (h : HI) (d : Draws)
  /-- `P*n`. -/
  | pTimes (n : Nat) (v : PI)
  /-- `H*n idle`. -/
  | hIdleTimes (n : Nat)
  /-- `submit(w)` as the source writes it. -/
  | submit (w : Word)
  /-- `poll()` as the source writes it. -/
  | poll
  /-- `advance()` called by the host domain. -/
  | advanceHost
deriving DecidableEq, Repr

/-- `H submit w` (R110). -/
def hSubmit (w : Word) : HI := ⟨true, false, w⟩

/-- `H poll` (R110). -/
def hPoll : HI := ⟨false, true, 0#16⟩

/-- `H idle` (R110). -/
def hIdle : HI := ⟨false, false, 0#16⟩

/-- The steps a line stands for (R110, R111). -/
def TraceLine.steps : TraceLine → List Instr
  | .reset => [.reset false false]
  | .p v => [.tickP v]
  | .h v => [.tickH v]
  | .ph pv hv dv => [.tickPH pv hv dv]
  | .pTimes n v => List.replicate n (.tickP v)
  | .hIdleTimes n => List.replicate n (.tickH hIdle)
  | .submit w => [.tickH (hSubmit w)]
  | .poll => [.tickH hPoll]
  | .advanceHost => [.tickH hIdle]

/-- The operation words of a trace. -/
def traceWords (ls : List TraceLine) : List OpWord := (ls.flatMap TraceLine.steps).map encode

/-- Load a trace behind what is already pending. -/
def State.loadTrace (s : State) (ls : List TraceLine) : State := { s with pending := s.pending ++ traceWords ls }

/-- `enqueue(word)` on a queue: "that queue's producer tick with `w_en = 1`" (R111). -/
def State.enqueueCall (s : State) (id : QueueId) (w : Word) : State := s.setQueue id ((s.queue id).producerTick true w)

/-- `dequeue()` on a queue: "that queue's consumer tick with `r_en = 1`" (R111). -/
def State.dequeueCall (s : State) (id : QueueId) : State :=
  s.setQueue id ((s.queue id).consumerTick true ((s.queue id).headWord s.era id))

end Sys2Proof.Machine
end

