-- ==== Sys2Proof/Safety.lean ====
section
/-! DEFINITION. The terms claims use: the representation, the chain and the contents law of a queue (44_invariants.md), the
invariant of the block, quiescence (42_harness.md R210), the peripheral's handshake (43_environment.md R231), the forms of
starvation (60_exceptions.md R283), the steps of the whole block (42_harness.md R203). -/

namespace Sys2Proof.Safety

open Sys2Proof.Machine

/-! ### A queue -/

/-- R250: every register is the pointer or the Gray code of its ghost count modulo `2^PW`. -/
structure QueueRep {a : Nat} (q : Queue a) : Prop where
  wptrBin  : q.wptrBin = BitVec.ofNat (a + 1) q.ghost.wc
  wptrGray : q.wptrGray = bin2gray (BitVec.ofNat (a + 1) q.ghost.wc)
  rptrBin  : q.rptrBin = BitVec.ofNat (a + 1) q.ghost.rc
  rptrGray : q.rptrGray = bin2gray (BitVec.ofNat (a + 1) q.ghost.rc)
  rWsync1  : q.rWsync1 = bin2gray (BitVec.ofNat (a + 1) q.ghost.ws1)
  rWsync2  : q.rWsync2 = bin2gray (BitVec.ofNat (a + 1) q.ghost.ws2)
  wRsync1  : q.wRsync1 = bin2gray (BitVec.ofNat (a + 1) q.ghost.rs1)
  wRsync2  : q.wRsync2 = bin2gray (BitVec.ofNat (a + 1) q.ghost.rs2)

/-- R251: `Rs2 <= Rs1 <= Rc <= Ws2 <= Ws1 <= Wc <= Rs2 + DEPTH`. -/
structure QueueChain {a : Nat} (q : Queue a) : Prop where
  rs2_le_rs1 : q.ghost.rs2 ≤ q.ghost.rs1
  rs1_le_rc  : q.ghost.rs1 ≤ q.ghost.rc
  rc_le_ws2  : q.ghost.rc ≤ q.ghost.ws2
  ws2_le_ws1 : q.ghost.ws2 ≤ q.ghost.ws1
  ws1_le_wc  : q.ghost.ws1 ≤ q.ghost.wc
  wc_le      : q.ghost.wc ≤ q.ghost.rs2 + 2 ^ a

/-- R256 and R258: the live entries hold the words enqueued, `contents` is those words, the words dequeued are the first
`Rc` words enqueued; and the storage keeps its canonical form. -/
structure QueueContents {a : Nat} (q : Queue a) : Prop where
  count    : q.ghost.enqueued.length = q.ghost.wc
  live     : ∀ k, q.ghost.rc ≤ k → k < q.ghost.wc → Memory.read q.mem (k % 2 ^ a) = q.ghost.enqueued[k]?
  contents : q.ghost.contents = q.ghost.enqueued.drop q.ghost.rc
  taken    : q.ghost.dequeued = q.ghost.enqueued.take q.ghost.rc
  form     : Memory.wf (2 ^ a) q.mem = true

/-- The invariant of one queue. -/
structure QueueInv {a : Nat} (q : Queue a) : Prop where
  rep      : QueueRep q
  chain    : QueueChain q
  contents : QueueContents q

/-- `Q.occ`, the true occupancy (10_state.md R40). -/
def occupancy {a : Nat} (q : Queue a) : Nat := q.ghost.wc - q.ghost.rc

/-! ### The block -/

/-- `fsm.state` is one of the three defined codes (30_encoding.md R95, R105). -/
def FsmDefined (s : State) : Prop := s.blk.fsm = IDLE ∨ s.blk.fsm = READING ∨ s.blk.fsm = WRITING

/-- The invariant of the block. -/
structure Inv (s : State) : Prop where
  inq  : QueueInv s.blk.inq
  outq : QueueInv s.blk.outq
  fsm  : FsmDefined s

/-- The registers of a queue without the ghosts: what the hardware holds (R20). -/
def hardware {a : Nat} (q : Queue a) : Queue a := { q with ghost := Ghost.reset }

/-- Two states with the same hardware and the same stimulus, whatever their ghosts (10_state.md R40). -/
def SameHardware (s t : State) : Prop :=
  ∃ inq outq : Ghost, ∃ dropped : List Word,
    t = { s with blk := { s.blk with inq := { s.blk.inq with ghost := inq }, outq := { s.blk.outq with ghost := outq } },
                 dropped := dropped }

/-- A queue that is truly empty with settled synchronisers (42_harness.md R210). -/
structure QueueQuiet {a : Nat} (q : Queue a) : Prop where
  empty   : q.wptrBin = q.rptrBin
  wptr    : q.wptrGray = bin2gray q.wptrBin
  rptr    : q.rptrGray = bin2gray q.rptrBin
  rWsync1 : q.rWsync1 = q.wptrGray
  rWsync2 : q.rWsync2 = q.wptrGray
  wRsync1 : q.wRsync1 = q.rptrGray
  wRsync2 : q.wRsync2 = q.rptrGray

/-- The block is quiescent (42_harness.md R210). `wptr` and `rptr` of QueueQuiet are R23 and R27, which hold of every
reachable state and which R210 leaves unsaid. -/
structure Quiescent (s : State) : Prop where
  fsm  : s.blk.fsm = IDLE
  inq  : QueueQuiet s.blk.inq
  outq : QueueQuiet s.blk.outq

/-! ### Selected operations -/

/-- Whether an operation is one of the controller's transitions: the key `FSM` is evaluated. -/
def isTransition : Instr → Bool
  | .fsmIdleRead _ _ _ => true
  | .fsmIdleWrite _ => true
  | .fsmIdleHoldT0 _ _ => true
  | .fsmIdleHoldD0 _ => true
  | .fsmReadCont _ _ _ _ => true
  | .fsmReadExit _ _ _ => true
  | .fsmWriteCont _ _ => true
  | .fsmWriteExitT0 _ _ _ => true
  | .fsmWriteExitD0 _ _ => true
  | .fsmReserved _ _ _ _ => true
  | .enq _ _ => false
  | .enqRefused _ _ => false
  | .prodIdle _ _ => false
  | .syncR2W _ _ _ => false
  | .deq _ => false
  | .deqEmpty _ => false
  | .consIdle _ _ => false
  | .syncW2R _ _ _ => false
  | .submit _ _ => false
  | .poll _ _ => false
  | .advance _ => false
  | .fillLevel _ => false
  | .tickP _ => false
  | .tickH _ => false
  | .tickPH _ _ _ => false
  | .reset _ _ => false

/-- The state bits that an operation's row tests, in the words of the rules: the controller's state and
`outbound_has_data` for a transition (41_bridge_fsm.md R160 to R169), the queue's flag for a port operation (40_queue_ops.md
R130, R131, R135, R136). The other rows test no state bit. -/
def selectedIn (s : State) : Instr → Bool
  | .fsmIdleRead _ _ _ => s.blk.fsm == IDLE
  | .fsmIdleWrite _ => s.blk.fsm == IDLE && s.blk.outq.dataAvailable
  | .fsmIdleHoldT0 _ _ => s.blk.fsm == IDLE
  | .fsmIdleHoldD0 _ => s.blk.fsm == IDLE && !s.blk.outq.dataAvailable
  | .fsmReadCont _ _ _ _ => s.blk.fsm == READING
  | .fsmReadExit _ _ _ => s.blk.fsm == READING
  | .fsmWriteCont _ _ => s.blk.fsm == WRITING && s.blk.outq.dataAvailable
  | .fsmWriteExitT0 _ _ _ => s.blk.fsm == WRITING
  | .fsmWriteExitD0 _ _ => s.blk.fsm == WRITING && !s.blk.outq.dataAvailable
  | .fsmReserved _ _ _ _ => s.blk.fsm == RESERVED
  | .enq q _ => (s.queue q).spaceAvailable
  | .enqRefused q _ => !(s.queue q).spaceAvailable
  | .prodIdle _ _ => true
  | .syncR2W _ _ _ => true
  | .deq q => (s.queue q).dataAvailable
  | .deqEmpty q => !(s.queue q).dataAvailable
  | .consIdle _ _ => true
  | .syncW2R _ _ _ => true
  | .submit _ _ => true
  | .poll _ _ => true
  | .advance _ => true
  | .fillLevel _ => true
  | .tickP _ => true
  | .tickH _ => true
  | .tickPH _ _ _ => true
  | .reset _ _ => true

/-! ### The environment -/

/-- The read handshake between two successive P ticks: a word offered and not strobed is kept, or withdrawn by lowering
`rxf` (43_environment.md R231). -/
def keepsWord (before : PI) (out : PO) (after : PI) : Bool :=
  !before.rxf || out.readStrobe || !after.rxf || after.dataIn == before.dataIn

/-- Whether, at a P tick with these inputs, the fixed priority or a running read burst makes a waiting outbound word wait
(60_exceptions.md R283 forms (i) and (iii)). -/
def defersOutbound (s : State) (v : PI) : Bool :=
  s.outHasData && v.rxf && (s.blk.fsm == READING || s.blk.fsm == IDLE)

/-- Whether, at a P tick with these inputs, a running write burst makes the peripheral's word wait (R283 form (ii)). -/
def defersInbound (s : State) (v : PI) : Bool := s.blk.fsm == WRITING && v.rxf && v.txe && s.outHasData

/-! ### Views and runs that statements use -/

/-- What a queue's ports answered. -/
def portAnswer {a : Nat} (o : Obs a) : QueueId → PortObs
  | .inq => o.inq
  | .outq => o.outq

/-- The registers and storage an H edge may change (42_harness.md R201). -/
def hostSide (s : State) : List Nat × Memory :=
  ([s.blk.outq.wptrBin.toNat, s.blk.outq.wptrGray.toNat, s.blk.outq.wRsync1.toNat, s.blk.outq.wRsync2.toNat,
    s.blk.inq.rptrBin.toNat, s.blk.inq.rptrGray.toNat, s.blk.inq.rWsync1.toNat, s.blk.inq.rWsync2.toNat], s.blk.outq.mem)

/-- The registers and storage a P edge may change (42_harness.md R200). -/
def peripheralSide (s : State) : List Nat × Memory :=
  ([s.blk.fsm.toNat, s.blk.inq.wptrBin.toNat, s.blk.inq.wptrGray.toNat, s.blk.inq.wRsync1.toNat, s.blk.inq.wRsync2.toNat,
    s.blk.outq.rptrBin.toNat, s.blk.outq.rptrGray.toNat, s.blk.outq.rWsync1.toNat, s.blk.outq.rWsync2.toNat], s.blk.inq.mem)

/-- The transition policy in prose order (41_bridge_fsm.md R160 to R168), beside the rows of key `FSM`. -/
def policy (st : BitVec 2) (rxf txe hasData : Bool) : BitVec 2 :=
  if st = READING then (if rxf then READING else IDLE)
  else if st = WRITING then (if txe && hasData then WRITING else IDLE)
  else if rxf then READING
  else if txe && hasData then WRITING
  else IDLE

/-- A `PO` vector with `data_out` kept only where it may be used (70_reset_and_hazards.md R323). -/
def usablePO (v : PO) : PO := { v with dataOut := if v.writeStrobe then v.dataOut else 0 }

/-- An `HO` vector with `poll_word` kept only where it may be used (70_reset_and_hazards.md R323). -/
def usableHO {a : Nat} (v : HO a) : HO a := { v with pollWord := if v.pollValid then v.pollWord else 0 }

/-- Two outcomes that differ in ghosts only. -/
def SameOutcome : Result → Result → Prop
  | .next s, .next t => SameHardware s t
  | .fault r, .fault r' => r = r'
  | .refused r, .refused r' => r = r'
  | _, _ => False

/-- One edge, or two at once, on a queue at which nothing is offered and nothing requested. -/
inductive QuietTick where
  | producer
  | consumer
  | both (dW dR : Bool)
deriving DecidableEq, Repr

/-- Run quiet ticks on a queue. -/
def quietTicks {a : Nat} : List QuietTick → Queue a → Queue a
  | [], q => q
  | .producer :: l, q => quietTicks l (q.producerTick false 0)
  | .consumer :: l, q => quietTicks l (q.consumerTick false 0)
  | .both dW dR :: l, q => quietTicks l (q.bothTick false 0 false 0 dW dR)

/-- How many producer edges a list of ticks has. -/
def producerEdges : List QuietTick → Nat
  | [] => 0
  | .producer :: l => producerEdges l + 1
  | .consumer :: l => producerEdges l
  | .both _ _ :: l => producerEdges l + 1

/-- How many consumer edges a list of ticks has. -/
def consumerEdges : List QuietTick → Nat
  | [] => 0
  | .producer :: l => consumerEdges l
  | .consumer :: l => consumerEdges l + 1
  | .both _ _ :: l => consumerEdges l + 1

/-- `n` P ticks with one input vector. -/
def ticksP (v : PI) : Nat → State → Result
  | 0, s => .next s
  | n + 1, s =>
    match exec (.tickP v) s with
    | .next t => ticksP v n t
    | .fault r => .fault r
    | .refused r => .refused r

/-- The states of a run: the reset state under any configuration with any stimulus, and every next state of a step
(42_harness.md R203). -/
inductive Reachable : State → Prop where
  | reset (c : Cfg) (ws : List OpWord) : Reachable { State.resetWith c with pending := ws }
  | step {s t : State} : Reachable s → Machine.step s = .next t → Reachable t

end Sys2Proof.Safety
end

