-- ==== Sys2Proof/Certificates/Slice0/Obligations.lean ====
section
/-! DEFINITION. The statements for the provers. Where a next state is written `{ s with …, obs := o, looks := n }` with `o`
and `n` bound by an existential, `obs` and `looks` are the model's own fields (log entries 9 and 12): the statement says of
`o` what the rule says of the outputs, and every field not written is unchanged. -/

open Sys2Proof Sys2Proof.Machine Sys2Proof.Safety

/-! ### Gray code and keys -/

/-- R90, whole. -/
def Obligations.BinaryToGrayBitByBit : Prop :=
  ∀ (n : Nat) (b : BitVec n), bin2gray b = b ^^^ (b >>> 1) ∧
    (∀ i, i + 1 < n → (bin2gray b).getLsbD i = (b.getLsbD (i + 1) ^^ b.getLsbD i)) ∧
    (∀ i, i + 1 = n → (bin2gray b).getLsbD i = b.getLsbD i)

/-- R91, whole: the top bit, each lower bit from the one above it, and the inverse. -/
def Obligations.GrayToBinaryInverts : Prop :=
  ∀ (n : Nat) (g b : BitVec n),
    (∀ i, i + 1 = n → (gray2bin g).getLsbD i = g.getLsbD i) ∧
    (∀ i, i + 1 < n → (gray2bin g).getLsbD i = ((gray2bin g).getLsbD (i + 1) ^^ g.getLsbD i)) ∧
    gray2bin (bin2gray b) = b ∧ bin2gray (gray2bin g) = g

/-- R92: successive codes differ in exactly one bit, the wrap included. -/
def Obligations.GrayNeighboursDifferInOneBit : Prop :=
  ∀ (n : Nat) (b : BitVec n), 1 ≤ n → ∃ k, k < n ∧ bin2gray b ^^^ bin2gray (b + 1) = BitVec.twoPow n k

/-- R100 and R169: the rows of key `FSM` give each of the 48 keys with a defined state code the next state of the policy,
exactly one row matching, and the 16 others none. -/
def Obligations.FsmRowsPartitionTheKeys : Prop :=
  ∀ (st : BitVec 2) (r t d sp : Bool),
    (st ≠ 0b11#2 → nextFsm (fsmKey st r t d sp) = some (policy st r t d) ∧
      (fsmRows.filter fun row => keySelects row.1 row.2.1 (fsmKey st r t d sp)).length = 1) ∧
    (st = 0b11#2 → nextFsm (fsmKey st r t d sp) = none)

/-! ### Decoding -/

/-- Decoding an encoded operation gives it back, every operand at every value. -/
def Obligations.DecodeOfEncodeIsTheOperation : Prop :=
  ∀ i : Instr, i.wellFormed = true → decode (encode i) = .op i

/-- A word that decodes is the encoding of what it decodes to, a bare key apart (log entry 4), and that is well formed. -/
def Obligations.DecodedWordIsItsEncoding : Prop :=
  ∀ (w : OpWord) (i : Instr), decode w = .op i →
    i.wellFormed = true ∧ ((Fields.ofWord w).port ≠ portNone → encode i = w)

/-- A few words written out: `FSM_READ_CONT` with `data_in`, `ENQ` on `OUTQ`, `POLL`, `TICK_PH` with draws, `RESET`. -/
def Obligations.WrittenWordsDecode : Prop :=
  decode 0x0000000000AB0119 = .op (.fsmReadCont false false true 0x00AB#16) ∧
  decode 0x0100000000310203 = .op (.enq .outq 0x0031#16) ∧
  decode 0x0000000000000701 = .op (.poll false 0#16) ∧
  decode 0x00CC00C600230B03 = .op (.tickPH ⟨true, false, 0x0023#16⟩ ⟨true, true, 0x0031#16⟩ ⟨true, true, false, false⟩) ∧
  decode 0x0000000000000B04 = .op (.reset false false)

/-! ### The step -/

/-- A step runs the operation the first pending word decodes to, that word taken off (log entry 5), if the outside world can
present it: a tick, a reset, a host call or a reading of the levels. The word of any other row, which is only part of a
tick, changes nothing (R237), unless the model's own field `lone` lets it be run by itself (log entry 6). -/
def Obligations.StepRunsDecodedOperation : Prop :=
  ∀ (s : State) (w : OpWord) (rest : List OpWord) (i : Instr), s.cfg.legal = true → s.pending = w :: rest →
    decode w = .op i →
    (s.lone = true ∨ isBlockStep i = true → step s = exec i { s with pending := rest }) ∧
    (s.lone = false → isBlockStep i = false → step s = .next { s with pending := rest })

/-- With no edge and no reset no register changes (R104, `STEP = 000`). The words are the model's choice (log entry 3):
`0x0B00` is the word it gives the key `STEP = 000`, and a word that is no operation presents no edge either. That nothing
pending is no edge is log entry 5. -/
def Obligations.NoEdgeChangesNothing : Prop :=
  ∀ s : State, s.cfg.legal = true →
    (s.pending = [] → step s = .next s) ∧
    (∀ rest, s.pending = (0x0B00#64 : OpWord) :: rest → step s = .next { s with pending := rest }) ∧
    (∀ w e rest, s.pending = w :: rest → decode w = .bad e → e ≠ .partialReset →
      step s = .next { s with pending := rest })

/-- An illegal configuration is refused (R6), and so is a reset of one domain alone (R313); nothing else is (R280). -/
def Obligations.IllegalConfigurationAndPartialResetAreRefused : Prop :=
  (∀ s : State, s.cfg.a = 0 → step s = .refused .illegalConfig) ∧
  (∀ (s : State) (k : BitVec 8) (rest : List OpWord), 1 ≤ s.cfg.a →
    s.pending = (Fields.bare portPartialReset k).toWord :: rest → step s = .refused .partialReset) ∧
  (∀ (s : State) (r : Refusal), step s = .refused r →
    (r = .illegalConfig ∧ s.cfg.a = 0) ∨
    (r = .partialReset ∧ ∃ w rest, s.pending = w :: rest ∧ decode w = .bad .partialReset))

/-- The model's choice (log entries 6 and 14): a row's word presented by `withFetchWord` is run, by itself if it is only part
of a tick, and its key selects it. -/
def Obligations.FetchedWordRunsSelected : Prop :=
  ∀ (s : State) (nbits w : Nat) (i : Instr), s.cfg.legal = true → decodeTableWord nbits w = some i →
    step (s.withFetchWord nbits w) = exec i { s.selecting i with lone := s.lone || !isBlockStep i } ∧
    selectedIn (s.selecting i) i = true

/-- No step changes the construction parameters: they are "fixed at construction, not runtime-mutable" (R6). What the outside
world can do to a running block is tick it and reset it "and nothing else" (R237, R203): where no row is run by itself, as
on every run from reset (log entry 6), a step that changes any register, storage entry or ghost is a `TICK_P`, a `TICK_H`, a
`TICK_PH` or a `RESET`. -/
def Obligations.OnlyTicksAndResetReachTheBlock : Prop :=
  ∀ s t : State, step s = .next t → t.cfg = s.cfg ∧ t.lone = s.lone ∧
    (s.lone = false →
      (∃ (o : Obs s.cfg.a) (n : Nat) (ws : List OpWord), t = { s with obs := o, looks := n, pending := ws }) ∨
      (∃ (ws : List OpWord) (i : Instr),
        ((∃ v, i = .tickP v) ∨ (∃ h, i = .tickH h) ∨ (∃ v h x, i = .tickPH v h x) ∨ (∃ p h, i = .reset p h)) ∧
        exec i { s with pending := ws } = .next t))

/-! ### Status signals -/

/-- R253 and R254, whole, under the invariant: the levels are exact differences and pessimistic; the flags imply what they
say; the converses do not hold. R255: no space exactly at capacity. -/
def Obligations.LevelsAreExactAndPessimistic : Prop :=
  (∀ (a : Nat) (q : Queue a), QueueInv q →
    q.wLevel.toNat = q.ghost.wc - q.ghost.rs2 ∧ q.rLevel.toNat = q.ghost.ws2 - q.ghost.rc ∧
    q.rLevel.toNat ≤ occupancy q ∧ occupancy q ≤ q.wLevel.toNat ∧ q.wLevel.toNat ≤ 2 ^ a ∧
    (q.spaceAvailable = false ↔ q.wLevel.toNat = 2 ^ a) ∧ (q.spaceAvailable = true → occupancy q < 2 ^ a) ∧
    (q.dataAvailable = true → 0 < occupancy q ∧ q.ghost.rc < q.ghost.ws2)) ∧
  (∃ (a : Nat) (q : Queue a), 1 ≤ a ∧ QueueInv q ∧ occupancy q < 2 ^ a ∧ q.spaceAvailable = false) ∧
  (∃ (a : Nat) (q : Queue a), 1 ≤ a ∧ QueueInv q ∧ 0 < occupancy q ∧ q.dataAvailable = false)

/-- R262 under the invariant: the flags as comparisons of Gray codes. -/
def Obligations.FlagsCompareGrayCodes : Prop :=
  ∀ (a : Nat) (q : Queue a), 1 ≤ a → QueueInv q →
    (q.empty = true ↔ q.rptrGray = q.rWsync2) ∧
    (q.full = true ↔ q.wptrGray = q.wRsync2 ^^^ ((0b11 : BitVec (a + 1)) <<< (a - 1)))

/-- R257 under the invariant: the entry read is not the entry an enqueue at the same instant writes, and its enqueue has
passed both synchroniser stages. -/
def Obligations.NoEntryReadAndWrittenAtOnce : Prop :=
  ∀ (a : Nat) (q : Queue a), QueueInv q → q.dataAvailable = true →
    q.ghost.rc < q.ghost.ws2 ∧ (q.spaceAvailable = true → indexOf q.rptrBin ≠ indexOf q.wptrBin)

/-! ### Controller outputs -/

/-- R183: the bus ownership invariant, over every state code and every input. -/
def Obligations.StrobesRespectBusOwnership : Prop :=
  ∀ (g : ReadGating) (st : BitVec 2) (r t d sp : Bool) (x : Word),
    let v := controllerPO g st r t d sp x
    (v.readStrobe = true → st = READING) ∧ (v.outputEnable = true ∨ v.writeStrobe = true → st = WRITING) ∧
    (v.writeStrobe = true → v.outputEnable = true) ∧ ¬ (v.readStrobe = true ∧ v.outputEnable = true)

/-- R170 to R178 collected: the table of output values per state. -/
def Obligations.OutputsPerState : Prop :=
  ∀ (g : ReadGating) (r t d sp : Bool) (x : Word),
    controllerPO g 0b00#2 r t d sp x = ⟨false, false, false, 0#2, 0#16, .none⟩ ∧
    controllerPO g 0b01#2 r t d sp x = ⟨r && (sp || g == .ungated), false, false, 0#2, 0#16, .peripheral⟩ ∧
    controllerPO g 0b10#2 r t d sp x = ⟨false, t && d, true, 0b11#2, x, .controller⟩

/-! ### Controller transitions -/

/-- R160. -/
def Obligations.IdleReadEntersReading : Prop :=
  ∀ (t d sp : Bool) (s : State), s.blk.fsm = 0b00#2 →
    ∃ (o : Obs s.cfg.a) (n : Nat),
      exec (.fsmIdleRead t d sp) s = .next { s with blk := { s.blk with fsm := 0b01#2 }, obs := o, looks := n } ∧
      o.po = some ⟨false, false, false, 0#2, 0#16, .none⟩

/-- R161. -/
def Obligations.IdleWriteEntersWriting : Prop :=
  ∀ (sp : Bool) (s : State), s.blk.fsm = 0b00#2 → s.blk.outq.dataAvailable = true →
    ∃ (o : Obs s.cfg.a) (n : Nat),
      exec (.fsmIdleWrite sp) s = .next { s with blk := { s.blk with fsm := 0b10#2 }, obs := o, looks := n } ∧
      o.po = some ⟨false, false, false, 0#2, 0#16, .none⟩

/-- R162 and R163: the two ways of staying idle. -/
def Obligations.IdleHoldsKeepIdle : Prop :=
  (∀ (d sp : Bool) (s : State), s.blk.fsm = 0b00#2 → ∃ (o : Obs s.cfg.a) (n : Nat),
    exec (.fsmIdleHoldT0 d sp) s = .next { s with obs := o, looks := n } ∧
    o.po = some ⟨false, false, false, 0#2, 0#16, .none⟩) ∧
  (∀ (sp : Bool) (s : State), s.blk.fsm = 0b00#2 → s.blk.outq.dataAvailable = false →
    ∃ (o : Obs s.cfg.a) (n : Nat),
      exec (.fsmIdleHoldD0 sp) s = .next { s with obs := o, looks := n } ∧
      o.po = some ⟨false, false, false, 0#2, 0#16, .none⟩)

/-- R164: while ready, the inbound queue's producer tick takes the word; while not, it takes nothing. What the tick does is
ProducerTickRegisters. -/
def Obligations.ReadContOffersTheWord : Prop :=
  ∀ (t d sp : Bool) (w : Word) (s : State), s.blk.fsm = 0b01#2 →
    let ready := s.blk.inq.spaceAvailable || s.cfg.gating == .ungated
    ∃ (o : Obs s.cfg.a) (n : Nat),
      exec (.fsmReadCont t d sp w) s = .next { s with
        blk := { s.blk with inq := s.blk.inq.producerTick ready w }
        dropped := if s.cfg.gating = .ungated ∧ s.blk.inq.spaceAvailable = false then s.dropped ++ [w] else s.dropped
        obs := o, looks := n } ∧
      o.po = some ⟨ready, false, false, 0#2, 0#16, .peripheral⟩ ∧
      o.inq.enqFire = s.blk.inq.spaceAvailable

/-- R165. -/
def Obligations.ReadExitReturnsToIdle : Prop :=
  ∀ (t d sp : Bool) (s : State), s.blk.fsm = 0b01#2 →
    ∃ (o : Obs s.cfg.a) (n : Nat),
      exec (.fsmReadExit t d sp) s = .next { s with blk := { s.blk with fsm := 0b00#2 }, obs := o, looks := n } ∧
      o.po = some ⟨false, false, false, 0#2, 0#16, .peripheral⟩

/-- R166: the head word is handed over and leaves the outbound queue. What the consumer tick does is
ConsumerTickRegisters. -/
def Obligations.WriteContHandsOverTheHead : Prop :=
  ∀ (r sp : Bool) (s : State), s.blk.fsm = 0b10#2 → s.blk.outq.dataAvailable = true →
    let word := memRead s.era .outq s.blk.outq.mem (indexOf s.blk.outq.rptrBin)
    ∃ (o : Obs s.cfg.a) (n : Nat),
      exec (.fsmWriteCont r sp) s = .next { s with
        blk := { s.blk with outq := s.blk.outq.consumerTick true word }, obs := o, looks := n } ∧
      o.po = some ⟨false, true, true, 0b11#2, word, .controller⟩ ∧
      o.outq.deqFire = true ∧ o.outq.word = some word

/-- R167 and R168: nothing is handed over and nothing leaves; `data_out` is the head word if there is one, otherwise any
word. -/
def Obligations.WriteExitsReturnToIdle : Prop :=
  (∀ (r d sp : Bool) (s : State), s.blk.fsm = 0b10#2 → ∃ (o : Obs s.cfg.a) (n : Nat) (x : Word),
    exec (.fsmWriteExitT0 r d sp) s = .next { s with blk := { s.blk with fsm := 0b00#2 }, obs := o, looks := n } ∧
    o.po = some ⟨false, false, true, 0b11#2, x, .controller⟩ ∧
    (s.blk.outq.dataAvailable = true → x = memRead s.era .outq s.blk.outq.mem (indexOf s.blk.outq.rptrBin))) ∧
  (∀ (r sp : Bool) (s : State), s.blk.fsm = 0b10#2 → s.blk.outq.dataAvailable = false →
    ∃ (o : Obs s.cfg.a) (n : Nat) (x : Word),
      exec (.fsmWriteExitD0 r sp) s = .next { s with blk := { s.blk with fsm := 0b00#2 }, obs := o, looks := n } ∧
      o.po = some ⟨false, false, true, 0b11#2, x, .controller⟩)

/-- R169 and R105: the reserved row stops, and so do every controller transition and every P edge in the reserved state
code; an H edge does not evaluate the controller's key and goes on (log entry 11). -/
def Obligations.ReservedStateCodeFaults : Prop :=
  (∀ (r t d sp : Bool) (s : State), exec (.fsmReserved r t d sp) s = .fault .reservedFsmState) ∧
  (∀ (i : Instr) (s : State), s.blk.fsm = 0b11#2 → isTransition i = true → exec i s = .fault .reservedFsmState) ∧
  (∀ (s : State) (v : PI) (h : HI) (x : Draws), s.blk.fsm = 0b11#2 →
    exec (.tickP v) s = .fault .reservedFsmState ∧ exec (.tickPH v h x) s = .fault .reservedFsmState ∧
    exec (.advance (.peripheral v)) s = .fault .reservedFsmState ∧ ∃ t, exec (.tickH h) s = .next t)

/-- The model's choice (log entry 7): an operation presented in a state whose bits do not match its row's is not performed,
and no register changes (R9). A key with the reserved state code is ReservedStateCodeFaults. -/
def Obligations.UnselectedOperationsChangeNothing : Prop :=
  ∀ (i : Instr) (s : State), selectedIn s i = false → (isTransition i = true → FsmDefined s) →
    (∀ r t d sp, i ≠ .fsmReserved r t d sp) →
    ∃ n : Nat, exec i s = .next { s with obs := Obs.blank s.cfg.a, looks := n }

/-! ### Queue ports -/

/-- R130: the word is stored at the write pointer's index and nowhere else, and both pointer copies advance; no other
register and no other queue changes. -/
def Obligations.EnqueueStoresAndAdvances : Prop :=
  ∀ (q : QueueId) (w : Word) (s : State), (s.queue q).spaceAvailable = true →
    let Q := s.queue q
    ∃ (m : Memory) (o : _) (n : Nat),
      exec (.enq q w) s = .next { s.setQueue q { Q with
        mem := m
        wptrBin := Q.wptrBin + 1
        wptrGray := bin2gray (Q.wptrBin + 1)
        ghost := { Q.ghost with
          wc := Q.ghost.wc + 1, contents := Q.ghost.contents ++ [w], enqueued := Q.ghost.enqueued ++ [w] } }
        with obs := o, looks := n } ∧
      memRead s.era q m (indexOf Q.wptrBin) = w ∧
      (∀ i, i ≠ indexOf Q.wptrBin → memRead s.era q m i = memRead s.era q Q.mem i) ∧
      (portAnswer o q).enqFire = true

/-- R131 and R132, the operations alone (log entry 6): a refused offer and no offer change no register and no entry; the
refusal is reported. -/
def Obligations.RefusedAndIdleProducersChangeNothing : Prop :=
  (∀ (q : QueueId) (w : Word) (s : State), (s.queue q).spaceAvailable = false → ∃ (o : Obs s.cfg.a) (n : Nat),
    exec (.enqRefused q w) s = .next { s with obs := o, looks := n } ∧
    (portAnswer o q).enqFire = false ∧ o.events = [(.capacityViolation, q)]) ∧
  (∀ (q : QueueId) (sp : Bool) (s : State), ∃ (o : Obs s.cfg.a) (n : Nat),
    exec (.prodIdle q sp) s = .next { s with obs := o, looks := n } ∧ (portAnswer o q).enqFire = false)

/-- R133 and R138: each synchroniser shifts and captures the other side's Gray pointer; nothing else of the hardware
changes. -/
def Obligations.SynchronisersShift : Prop :=
  (∀ (q : QueueId) (e sp : Bool) (s : State), ∃ (o : _) (n : Nat),
    exec (.syncR2W q e sp) s = .next { s.setQueue q { s.queue q with
      wRsync2 := (s.queue q).wRsync1
      wRsync1 := (s.queue q).rptrGray
      ghost := { (s.queue q).ghost with rs2 := (s.queue q).ghost.rs1, rs1 := (s.queue q).ghost.rc } }
      with obs := o, looks := n }) ∧
  (∀ (q : QueueId) (e da : Bool) (s : State), ∃ (o : _) (n : Nat),
    exec (.syncW2R q e da) s = .next { s.setQueue q { s.queue q with
      rWsync2 := (s.queue q).rWsync1
      rWsync1 := (s.queue q).wptrGray
      ghost := { (s.queue q).ghost with ws2 := (s.queue q).ghost.ws1, ws1 := (s.queue q).ghost.wc } }
      with obs := o, looks := n })

/-- R135: the head word is returned and both read pointer copies advance; no storage entry changes. -/
def Obligations.DequeueReturnsHeadAndAdvances : Prop :=
  ∀ (q : QueueId) (s : State), (s.queue q).dataAvailable = true →
    let Q := s.queue q
    let word := memRead s.era q Q.mem (indexOf Q.rptrBin)
    ∃ (o : _) (n : Nat),
      exec (.deq q) s = .next { s.setQueue q { Q with
        rptrBin := Q.rptrBin + 1
        rptrGray := bin2gray (Q.rptrBin + 1)
        ghost := { Q.ghost with
          rc := Q.ghost.rc + 1, contents := Q.ghost.contents.tail, dequeued := Q.ghost.dequeued ++ [word] } }
        with obs := o, looks := n } ∧
      (portAnswer o q).deqFire = true ∧ (portAnswer o q).word = some word

/-- R136 and R137, the operations alone (log entry 6): a request with no data and no request change no register; no word is
returned. -/
def Obligations.EmptyAndIdleConsumersChangeNothing : Prop :=
  (∀ (q : QueueId) (s : State), (s.queue q).dataAvailable = false → ∃ (o : Obs s.cfg.a) (n : Nat),
    exec (.deqEmpty q) s = .next { s with obs := o, looks := n } ∧
    (portAnswer o q).deqFire = false ∧ (portAnswer o q).word = none ∧ o.events = [(.emptyDequeue, q)]) ∧
  (∀ (q : QueueId) (da : Bool) (s : State), ∃ (o : Obs s.cfg.a) (n : Nat),
    exec (.consIdle q da) s = .next { s with obs := o, looks := n } ∧ (portAnswer o q).word = none)

/-- R134 with R130 to R133: everything a producer tick does to a queue, from pre-edge values. -/
def Obligations.ProducerTickRegisters : Prop :=
  ∀ (a : Nat) (q : Queue a) (wEn : Bool) (w : Word),
    let fires := wEn = true ∧ q.wptrBin - gray2bin q.wRsync2 ≠ BitVec.ofNat (a + 1) (2 ^ a)
    let q' := q.producerTick wEn w
    q'.wRsync2 = q.wRsync1 ∧ q'.wRsync1 = q.rptrGray ∧
    q'.rptrBin = q.rptrBin ∧ q'.rptrGray = q.rptrGray ∧ q'.rWsync1 = q.rWsync1 ∧ q'.rWsync2 = q.rWsync2 ∧
    (fires → q'.wptrBin = q.wptrBin + 1 ∧ q'.wptrGray = bin2gray (q.wptrBin + 1) ∧
      (∀ i, Memory.read q'.mem i = if i = indexOf q.wptrBin then some w else Memory.read q.mem i)) ∧
    (¬ fires → q'.wptrBin = q.wptrBin ∧ q'.wptrGray = q.wptrGray ∧ q'.mem = q.mem)

/-- R139 with R135 to R138: everything a consumer tick does to a queue, from pre-edge values. -/
def Obligations.ConsumerTickRegisters : Prop :=
  ∀ (a : Nat) (q : Queue a) (rEn : Bool) (w : Word),
    let fires := rEn = true ∧ gray2bin q.rWsync2 - q.rptrBin ≠ 0
    let q' := q.consumerTick rEn w
    q'.rWsync2 = q.rWsync1 ∧ q'.rWsync1 = q.wptrGray ∧ q'.mem = q.mem ∧
    q'.wptrBin = q.wptrBin ∧ q'.wptrGray = q.wptrGray ∧ q'.wRsync1 = q.wRsync1 ∧ q'.wRsync2 = q.wRsync2 ∧
    (fires → q'.rptrBin = q.rptrBin + 1 ∧ q'.rptrGray = bin2gray (q.rptrBin + 1) ∧
      q'.ghost.dequeued = q.ghost.dequeued ++ [w]) ∧
    (¬ fires → q'.rptrBin = q.rptrBin ∧ q'.rptrGray = q.rptrGray ∧ q'.ghost.dequeued = q.ghost.dequeued)

/-- R289: a request that fails leaves a queue exactly as the same tick without the request would have left it. -/
def Obligations.FailedRequestsLeaveNoTrace : Prop :=
  ∀ (a : Nat) (q : Queue a) (w x : Word),
    (q.spaceAvailable = false → q.producerTick true w = q.producerTick false x) ∧
    (q.dataAvailable = false → q.consumerTick true w = q.consumerTick false x)

/-! ### Harness calls and step kinds -/

/-- R204: the H tick with the submit slot used (log entry 8): the result is whether there is space, and the outbound queue
takes a producer tick with `w_en = 1`. -/
def Obligations.SubmitOffersToOutbound : Prop :=
  ∀ (p : Bool) (w : Word) (s : State), ∃ (o : Obs s.cfg.a) (n : Nat) (v : HO s.cfg.a),
    exec (.submit p w) s = .next { s with
      blk := { s.blk with
        outq := s.blk.outq.producerTick true w
        inq := s.blk.inq.consumerTick p (memRead s.era .inq s.blk.inq.mem (indexOf s.blk.inq.rptrBin)) }
      obs := o, looks := n } ∧
    o.ho = some v ∧ v.submitOk = s.blk.outq.spaceAvailable ∧ o.outq.enqFire = s.blk.outq.spaceAvailable

/-- R205: the H tick with the poll slot used (log entry 8): the result is the head word if data is available, otherwise
none, and the inbound queue takes a consumer tick with `r_en = 1`. -/
def Obligations.PollTakesFromInbound : Prop :=
  ∀ (x : Bool) (w : Word) (s : State),
    let head := memRead s.era .inq s.blk.inq.mem (indexOf s.blk.inq.rptrBin)
    ∃ (o : Obs s.cfg.a) (n : Nat) (v : HO s.cfg.a),
      exec (.poll x w) s = .next { s with
        blk := { s.blk with
          outq := s.blk.outq.producerTick x w
          inq := s.blk.inq.consumerTick true head }
        obs := o, looks := n } ∧
      o.ho = some v ∧ v.pollValid = s.blk.inq.dataAvailable ∧
      v.pollResult = (if s.blk.inq.dataAvailable then some head else none) ∧ o.inq.word = v.pollResult

/-- R206: the host's `advance()` is an H tick with both slots unused, the peripheral's a P tick with the vector it presents;
both complete. That a `submit` or a `poll` is the H tick with its slot used is the model's reading of R206 (log entry 8). -/
def Obligations.AdvanceIsATick : Prop :=
  (∀ s : State, exec (.advance .host) s = exec (.tickH ⟨false, false, 0#16⟩) s ∧
    ∃ t, exec (.advance .host) s = .next t) ∧
  (∀ (s : State) (v : PI), exec (.advance (.peripheral v)) s = exec (.tickP v) s ∧
    (FsmDefined s → ∃ t, exec (.advance (.peripheral v)) s = .next t)) ∧
  (∀ (s : State) (b : Bool) (w : Word), exec (.submit b w) s = exec (.tickH ⟨true, b, w⟩) s ∧
    exec (.poll b w) s = exec (.tickH ⟨b, true, w⟩) s)

/-- R207: `fill_level` is the producer-side level; reading it changes no register. -/
def Obligations.FillLevelReadsTheLevels : Prop :=
  ∀ (q : QueueId) (s : State), ∃ (o : Obs s.cfg.a) (n : Nat),
    exec (.fillLevel q) s = .next { s with obs := o, looks := n } ∧
    o.level = some ⟨q, (s.queue q).wptrBin - gray2bin (s.queue q).wRsync2,
      gray2bin (s.queue q).rWsync2 - (s.queue q).rptrBin⟩

/-- R200: the P tick. -/
def Obligations.PeripheralTickUpdates : Prop :=
  ∀ (v : PI) (s : State), FsmDefined s →
    let wEn := s.blk.fsm == READING && v.rxf && (s.blk.inq.spaceAvailable || s.cfg.gating == .ungated)
    let rEn := s.blk.fsm == WRITING && v.txe && s.blk.outq.dataAvailable
    let word := memRead s.era .outq s.blk.outq.mem (indexOf s.blk.outq.rptrBin)
    ∃ (o : Obs s.cfg.a) (n : Nat) (out : PO),
      exec (.tickP v) s = .next { s with
        blk := {
          fsm := policy s.blk.fsm v.rxf v.txe s.blk.outq.dataAvailable
          inq := s.blk.inq.producerTick wEn v.dataIn
          outq := s.blk.outq.consumerTick rEn word }
        dropped := if wEn = true ∧ s.blk.inq.spaceAvailable = false then s.dropped ++ [v.dataIn] else s.dropped
        obs := o, looks := n } ∧
      o.po = some out ∧ out.readStrobe = wEn ∧ out.writeStrobe = rEn ∧
      out.outputEnable = (s.blk.fsm == WRITING) ∧ (rEn = true → out.dataOut = word)

/-- R200 with R100: the P tick performs the transition that the key of its pre-edge state selects: the row the decoder reads
from the key's bits has the same next state, outputs and losses, and the queue side that the row leaves out ticks with
nothing offered and nothing requested. -/
def Obligations.TickPerformsTheSelectedTransition : Prop :=
  ∀ (v : PI) (s : State), FsmDefined s →
    let reads := s.blk.fsm == READING && v.rxf
    let writes := s.blk.fsm == WRITING && v.txe && s.blk.outq.dataAvailable
    ∃ (i : Instr) (b b' : Block s.cfg.a) (d : List Word) (o o' : Obs s.cfg.a) (n n' : Nat),
      decode { Fields.bare portFsm (0#2 ++ s.key v.rxf v.txe) with
        dataIn := if reads then v.dataIn else 0#16 : Fields }.toWord = .op i ∧
      exec i s = .next { s with blk := b, dropped := d, obs := o, looks := n } ∧
      exec (.tickP v) s = .next { s with blk := b', dropped := d, obs := o', looks := n' } ∧
      b'.fsm = b.fsm ∧ o'.po = o.po ∧
      b'.inq = (if reads then b.inq else b.inq.producerTick false 0) ∧
      b'.outq = (if writes then b.outq else b.outq.consumerTick false 0)

/-- R201: the H tick. -/
def Obligations.HostTickUpdates : Prop :=
  ∀ (v : HI) (s : State), ∃ (o : Obs s.cfg.a) (n : Nat) (out : HO s.cfg.a),
    exec (.tickH v) s = .next { s with
      blk := { s.blk with
        outq := s.blk.outq.producerTick v.submitValid v.submitWord
        inq := s.blk.inq.consumerTick v.pollReady (memRead s.era .inq s.blk.inq.mem (indexOf s.blk.inq.rptrBin)) }
      obs := o, looks := n } ∧
    o.ho = some out ∧ out.submitOk = (v.submitValid && s.blk.outq.spaceAvailable) ∧
    out.pollValid = s.blk.inq.dataAvailable ∧ out.outWLevel = s.blk.outq.wLevel ∧ out.inRLevel = s.blk.inq.rLevel

/-- R200 and R201: the registers a tick may change. -/
def Obligations.TicksKeepTheOtherDomain : Prop :=
  ∀ s t : State,
    (∀ v, exec (.tickP v) s = .next t → hostSide t = hostSide s) ∧
    (∀ v, exec (.tickH v) s = .next t → peripheralSide t = peripheralSide s)

/-- R202: a coincident edge is both halves from the common pre-edge state, with the four first synchroniser stages drawn
between the source register before and after the edge. -/
def Obligations.CoincidentTickDrawsItsSamples : Prop :=
  ∀ (v : PI) (h : HI) (x : Draws) (s : State), FsmDefined s →
    ∃ (u p b : Block s.cfg.a) (du dp : List Word) (o oP oH : Obs s.cfg.a) (n nP nH : Nat),
      exec (.tickPH v h x) s = .next { s with blk := u, dropped := du, obs := o, looks := n } ∧
      exec (.tickP v) s = .next { s with blk := p, dropped := dp, obs := oP, looks := nP } ∧
      exec (.tickH h) s = .next { s with blk := b, obs := oH, looks := nH } ∧
      u.fsm = p.fsm ∧ du = dp ∧
      hardware u.inq = hardware { p.inq with
        rptrBin := b.inq.rptrBin, rptrGray := b.inq.rptrGray, rWsync2 := b.inq.rWsync2
        wRsync1 := if x.d1 then b.inq.rptrGray else s.blk.inq.rptrGray
        rWsync1 := if x.d4 then p.inq.wptrGray else s.blk.inq.wptrGray } ∧
      hardware u.outq = hardware { b.outq with
        rptrBin := p.outq.rptrBin, rptrGray := p.outq.rptrGray, rWsync2 := p.outq.rWsync2
        rWsync1 := if x.d2 then b.outq.wptrGray else s.blk.outq.wptrGray
        wRsync1 := if x.d3 then p.outq.rptrGray else s.blk.outq.rptrGray }

/-- R43: every register after the reset event; the storage is unspecified. A coincident edge has no effect. The state after
power-on has the same block. -/
def Obligations.ResetClearsEveryRegister : Prop :=
  (∀ c : Cfg, (State.resetWith c).blk = Block.reset c.a) ∧ ∀ (p h : Bool) (s : State), ∃ (mi mo : Memory) (o : Obs s.cfg.a) (n e : Nat),
    exec (.reset p h) s = .next { s with
      blk := {
        inq := ⟨0, 0, 0, 0, 0, 0, 0, 0, mi, ⟨0, 0, 0, 0, 0, 0, [], [], []⟩⟩
        outq := ⟨0, 0, 0, 0, 0, 0, 0, 0, mo, ⟨0, 0, 0, 0, 0, 0, [], [], []⟩⟩
        fsm := 0b00#2 }
      dropped := [], obs := o, looks := n, era := e } ∧
    exec (.reset p h) s = exec (.reset false false) s

/-- R312 and the flags of R310, of every state whose block is just reset: `space_available`, no data, the controller's
outputs 0 whatever the inputs are, `submit_ok = submit_valid`, `poll_valid = 0`. -/
def Obligations.OutputsAfterReset : Prop :=
  ∀ (s : State) (r t : Bool) (v : HI), s.blk = Block.reset s.cfg.a →
    s.blk.inq.spaceAvailable = true ∧ s.blk.outq.spaceAvailable = true ∧
    s.blk.inq.dataAvailable = false ∧ s.blk.outq.dataAvailable = false ∧
    s.blk.inq.wLevel = 0 ∧ s.blk.outq.wLevel = 0 ∧ s.blk.inq.rLevel = 0 ∧ s.blk.outq.rLevel = 0 ∧
    s.po r t = ⟨false, false, false, 0#2, 0#16, .none⟩ ∧
    (s.ho v).submitOk = v.submitValid ∧ (s.ho v).pollValid = false

/-! ### The controller with the queues -/

/-- R264: what the strobes say of the queues. -/
def Obligations.StrobesMoveWords : Prop :=
  ∀ (v : PI) (s : State), FsmDefined s → ∃ (b : Block s.cfg.a) (d : List Word) (o : Obs s.cfg.a) (n : Nat) (out : PO),
    exec (.tickP v) s = .next { s with blk := b, dropped := d, obs := o, looks := n } ∧ o.po = some out ∧
    b.outq.ghost.dequeued = s.blk.outq.ghost.dequeued ++ (if out.writeStrobe then [out.dataOut] else []) ∧
    b.inq.ghost.enqueued =
      s.blk.inq.ghost.enqueued ++ (if out.readStrobe && s.blk.inq.spaceAvailable then [v.dataIn] else []) ∧
    d = s.dropped ++ (if out.readStrobe && !s.blk.inq.spaceAvailable then [v.dataIn] else []) ∧
    (s.cfg.gating = .gated → out.readStrobe = true → s.blk.inq.spaceAvailable = true) ∧
    (out.writeStrobe = true → s.blk.outq.dataAvailable = true)

/-- R285: with `READ_GATING = gated` no operation loses an inbound word. -/
def Obligations.GatedNeverDrops : Prop :=
  ∀ (i : Instr) (s t : State), s.cfg.gating = .gated → exec i s = .next t → (∀ p h, i ≠ .reset p h) →
    t.dropped = s.dropped ∧ ∀ q, (Event.inboundDrop, q) ∉ t.obs.events

/-- R329: no operation goes from one direction of the bus to the other; the state between is `IDLE`. -/
def Obligations.BusTurnsThroughIdle : Prop :=
  ∀ (i : Instr) (s t : State), exec i s = .next t →
    (s.blk.fsm = READING → t.blk.fsm = READING ∨ t.blk.fsm = IDLE) ∧
    (s.blk.fsm = WRITING → t.blk.fsm = WRITING ∨ t.blk.fsm = IDLE)

/-- R72 and R326 item 2: except at a reset, each Gray pointer changes at most one bit in a step. -/
def Obligations.GrayPointersMoveOneBit : Prop :=
  ∀ (i : Instr) (s t : State) (q : QueueId), Inv s → exec i s = .next t → (∀ p h, i ≠ .reset p h) →
    ((t.queue q).wptrGray.toNat = (s.queue q).wptrGray.toNat ∨
      ∃ k, k ≤ s.cfg.a ∧ (t.queue q).wptrGray.toNat = (s.queue q).wptrGray.toNat ^^^ 2 ^ k) ∧
    ((t.queue q).rptrGray.toNat = (s.queue q).rptrGray.toNat ∨
      ∃ k, k ≤ s.cfg.a ∧ (t.queue q).rptrGray.toNat = (s.queue q).rptrGray.toNat ^^^ 2 ^ k)

/-- R162: repeated P ticks with `rxf = txe = 0` leave the controller idle, with no strobe, no enqueue and no dequeue. -/
def Obligations.IdleIsIdempotent : Prop :=
  ∀ (k : Nat) (x : Word) (s : State), s.blk.fsm = IDLE →
    ∃ (b : Block s.cfg.a) (o : Obs s.cfg.a) (n : Nat),
      ticksP ⟨false, false, x⟩ k s = .next { s with blk := b, obs := o, looks := n } ∧
      b.fsm = IDLE ∧ b.inq.wptrBin = s.blk.inq.wptrBin ∧ b.inq.wptrGray = s.blk.inq.wptrGray ∧
      b.inq.mem = s.blk.inq.mem ∧ b.outq.rptrBin = s.blk.outq.rptrBin ∧ b.outq.rptrGray = s.blk.outq.rptrGray ∧
      (0 < k → o.po = some ⟨false, false, false, 0#2, 0#16, .none⟩)

/-- R210: from a quiescent state, ticks with `rxf = 0` and `submit_valid = 0` change no register. -/
def Obligations.QuiescentTicksChangeNothing : Prop :=
  ∀ (s : State) (v : PI) (h : HI) (x : Draws), Quiescent s → v.rxf = false → h.submitValid = false →
    ∀ i ∈ [Instr.tickP v, Instr.tickH h, Instr.tickPH v h x],
      ∃ (b : Block s.cfg.a) (o : Obs s.cfg.a) (n : Nat),
        exec i s = .next { s with blk := b, obs := o, looks := n } ∧ b.fsm = s.blk.fsm ∧
        hardware b.inq = hardware s.blk.inq ∧ hardware b.outq = hardware s.blk.outq

/-! ### Order and capacity -/

/-- R258 under the invariant: a dequeue that fires returns the oldest word enqueued and not yet dequeued. -/
def Obligations.DequeueReturnsOldestWord : Prop :=
  ∀ (q : QueueId) (s : State), Inv s → (s.queue q).dataAvailable = true →
    ∃ (t : State) (w : Word), exec (.deq q) s = .next t ∧
      (s.queue q).ghost.contents.head? = some w ∧
      (s.queue q).ghost.enqueued[(s.queue q).ghost.rc]? = some w ∧
      (t.queue q).ghost.dequeued = (s.queue q).ghost.dequeued ++ [w] ∧
      (t.queue q).ghost.contents = (s.queue q).ghost.contents.tail

/-- R261 under the invariant: with nothing offered and nothing requested, two edges of each side, in any order and with any
coincidences, make both levels the true occupancy. -/
def Obligations.QuietQueueConverges : Prop :=
  ∀ (a : Nat) (q : Queue a) (l : List QuietTick), QueueInv q → 2 ≤ producerEdges l → 2 ≤ consumerEdges l →
    (quietTicks l q).wLevel.toNat = occupancy q ∧ (quietTicks l q).rLevel.toNat = occupancy q ∧
    occupancy (quietTicks l q) = occupancy q

/-- R330, first row: a word enqueued into a settled empty queue shows at the second consumer tick after it, not earlier,
and is the head word then. -/
def Obligations.EnqueueShowsAtSecondConsumerTick : Prop :=
  ∀ (a : Nat) (q : Queue a) (id : QueueId) (era : Nat) (w : Word), QueueInv q → QueueQuiet q →
    let q0 := q.producerTick true w
    let q1 := q0.consumerTick false 0
    let q2 := q1.consumerTick false 0
    q0.dataAvailable = false ∧ q1.dataAvailable = false ∧ q2.dataAvailable = true ∧ q2.headWord era id = w

/-! ### Headlines -/

/-- The invariant holds after reset, under every configuration. -/
def Obligations.ResetHasTheInvariant : Prop :=
  ∀ c : Cfg, Inv (State.resetWith c)

/-- Every step of every state with the invariant keeps it: representation, chain, contents and storage form of both queues,
and a defined state code. -/
def Obligations.StepKeepsTheInvariant : Prop :=
  ∀ s t : State, Inv s → step s = .next t → Inv t

/-- R250, R251, R252, R256 and the prefix clause of R258 at every reachable state, with any configuration, stimulus and order of edges. -/
def Obligations.ReachableStatesAreLossless : Prop :=
  ∀ s : State, Reachable s → ∀ q : QueueId,
    QueueRep (s.queue q) ∧ QueueChain (s.queue q) ∧ QueueContents (s.queue q) ∧
    (s.queue q).ghost.wc - (s.queue q).ghost.rc ≤ 2 ^ s.cfg.a ∧
    (s.queue q).ghost.dequeued <+: (s.queue q).ghost.enqueued

/-- U4 and R280: from a state with the invariant a step faults only if it runs the reserved row by itself (log entry 6). No
step of a run from reset does. -/
def Obligations.OnlyTheReservedRowFaults : Prop :=
  ∀ (s : State) (r : Fault), Inv s → step s = .fault r →
    s.lone = true ∧ ∃ w rest, s.pending = w :: rest ∧ ∃ x t d sp, decode w = .op (.fsmReserved x t d sp)

/-- R263 under the invariant: a coincident edge with draws `1100` is `TICK_H` then `TICK_P`, with draws `0011` it is
`TICK_P` then `TICK_H`, in state and in every output that may be used. -/
def Obligations.CoincidentEdgesIncludeBothOrders : Prop :=
  ∀ (v : PI) (h : HI) (s : State), Inv s →
    (∃ (b bH : Block s.cfg.a) (d : List Word) (o oH oP : Obs s.cfg.a) (n nH nP : Nat),
      exec (.tickPH v h ⟨true, true, false, false⟩) s = .next { s with blk := b, dropped := d, obs := o, looks := n } ∧
      exec (.tickH h) s = .next { s with blk := bH, obs := oH, looks := nH } ∧
      exec (.tickP v) { s with blk := bH, obs := oH, looks := nH } =
        .next { s with blk := b, dropped := d, obs := oP, looks := nP } ∧
      o.po.map usablePO = oP.po.map usablePO ∧ o.ho.map usableHO = oH.ho.map usableHO) ∧
    (∃ (b bP : Block s.cfg.a) (d : List Word) (o oH oP : Obs s.cfg.a) (n nH nP : Nat),
      exec (.tickPH v h ⟨false, false, true, true⟩) s = .next { s with blk := b, dropped := d, obs := o, looks := n } ∧
      exec (.tickP v) s = .next { s with blk := bP, dropped := d, obs := oP, looks := nP } ∧
      exec (.tickH h) { s with blk := bP, dropped := d, obs := oP, looks := nP } =
        .next { s with blk := b, dropped := d, obs := oH, looks := nH } ∧
      o.po.map usablePO = oP.po.map usablePO ∧ o.ho.map usableHO = oH.ho.map usableHO)

/-- R40: the ghosts are not hardware. States that differ in ghosts only take the same step, up to ghosts. -/
def Obligations.GhostsNeverReachHardware : Prop :=
  ∀ s t : State, SameHardware s t → SameOutcome (step s) (step t)
end

