-- ==== Sys2Proof/Laws/Decode.lean ====
section
/-! SUPPORT. Cutting a word into fields and putting it together again; what the decoder's guard says. -/

namespace Sys2Proof

/-- The fields of a word built from fields are those fields. -/
theorem Fields.ofWord_toWord (f : Fields) : Fields.ofWord f.toWord = f := by
  obtain ⟨key, port, dataIn, txe, rxf, sw, pr, sv, dr, q, spare⟩ := f
  have h : ∀ x : Fields, x.key = key → x.port = port → x.dataIn = dataIn → x.txe = txe → x.rxf = rxf →
      x.submitWord = sw → x.pollReady = pr → x.submitValid = sv → x.draws = dr → x.queue = q → x.spare = spare →
      x = ⟨key, port, dataIn, txe, rxf, sw, pr, sv, dr, q, spare⟩ := by
    rintro ⟨⟩; simp; intros; simp [*]
  apply h
  all_goals simp only [Fields.ofWord, Fields.toWord]
  all_goals
    try (apply BitVec.eq_of_getLsbD_eq; intro i hi
         simp only [BitVec.getLsbD_extractLsb', BitVec.getLsbD_append, BitVec.getLsbD_ofBool])
  all_goals try simp only [BitVec.getLsbD_append, BitVec.getLsbD_ofBool]
  all_goals first | (simp; done) | (interval_cases i <;> simp)

/-- A word built from a word's fields is that word: no bit of an operation word is dropped. -/
theorem Fields.toWord_ofWord (w : OpWord) : (Fields.ofWord w).toWord = w := by
  apply BitVec.eq_of_getLsbD_eq
  intro i hi
  simp only [Fields.ofWord, Fields.toWord, BitVec.getLsbD_extractLsb', BitVec.getLsbD_append, BitVec.getLsbD_ofBool]
  interval_cases i <;> simp

/-- Two lists of fields are equal if every field is. -/
theorem Fields.ext_fields {f g : Fields} (h1 : f.key = g.key) (h2 : f.port = g.port) (h3 : f.dataIn = g.dataIn)
    (h4 : f.txe = g.txe) (h5 : f.rxf = g.rxf) (h6 : f.submitWord = g.submitWord) (h7 : f.pollReady = g.pollReady)
    (h8 : f.submitValid = g.submitValid) (h9 : f.draws = g.draws) (h10 : f.queue = g.queue) (h11 : f.spare = g.spare) :
    f = g := by
  cases f; cases g; simp_all

/-- What the unused fields of an accepted word are. -/
theorem Fields.clear_iff (f : Fields) (useData usePi useWord useHi useDraws useQueue : Bool) :
    f.clear useData usePi useWord useHi useDraws useQueue = true ↔
      (useData = true ∨ f.dataIn = 0#16) ∧ (usePi = true ∨ f.txe = false ∧ f.rxf = false) ∧
      (useWord = true ∨ f.submitWord = 0#16) ∧ (useHi = true ∨ f.pollReady = false ∧ f.submitValid = false) ∧
      (useDraws = true ∨ f.draws = 0#4) ∧ (useQueue = true ∨ f.queue = false) ∧ f.spare = 0#7 := by
  simp [Fields.clear, and_assoc]

/-- The decoder's guard accepts exactly one operation, where it holds. -/
theorem guarded_op {ok : Bool} {i j : Instr} (h : guarded ok i = .op j) : ok = true ∧ j = i := by
  cases ok <;> simp [guarded] at h
  exact ⟨rfl, h.symm⟩

end Sys2Proof
end

