-- ==== Sys2Proof/Laws/Keys.lean ====
section
/-! SUPPORT. When each row of a key is selected, in terms of the state it tests (30_encoding.md R100 to R102), and what the
controller drives in each state. -/

namespace Sys2Proof.Machine

section Rows

variable (s : State) (r t : Bool)

theorem key_idleRead : keySelects 0b111000#6 0b001000#6 (s.key true t) = (s.blk.fsm == 0#2) := by
  unfold State.key
  generalize s.blk.fsm = st, s.outHasData = d, s.inHasSpace = sp
  revert st t d sp; decide

theorem key_idleWrite :
    keySelects 0b111110#6 0b000110#6 (s.key false true) = (s.blk.fsm == 0#2 && s.blk.outq.dataAvailable) := by
  unfold State.key State.outHasData
  generalize s.blk.fsm = st, s.blk.outq.dataAvailable = d, s.inHasSpace = sp
  revert st d sp; decide

theorem key_idleHoldT0 : keySelects 0b111100#6 0b000000#6 (s.key false false) = (s.blk.fsm == 0#2) := by
  unfold State.key
  generalize s.blk.fsm = st, s.outHasData = d, s.inHasSpace = sp
  revert st d sp; decide

theorem key_idleHoldD0 :
    keySelects 0b111110#6 0b000100#6 (s.key false true) = (s.blk.fsm == 0#2 && !s.blk.outq.dataAvailable) := by
  unfold State.key State.outHasData
  generalize s.blk.fsm = st, s.blk.outq.dataAvailable = d, s.inHasSpace = sp
  revert st d sp; decide

theorem key_readCont : keySelects 0b111000#6 0b011000#6 (s.key true t) = (s.blk.fsm == 1#2) := by
  unfold State.key
  generalize s.blk.fsm = st, s.outHasData = d, s.inHasSpace = sp
  revert st t d sp; decide

theorem key_readExit : keySelects 0b111000#6 0b010000#6 (s.key false t) = (s.blk.fsm == 1#2) := by
  unfold State.key
  generalize s.blk.fsm = st, s.outHasData = d, s.inHasSpace = sp
  revert st t d sp; decide

theorem key_writeCont :
    keySelects 0b110110#6 0b100110#6 (s.key r true) = (s.blk.fsm == 2#2 && s.blk.outq.dataAvailable) := by
  unfold State.key State.outHasData
  generalize s.blk.fsm = st, s.blk.outq.dataAvailable = d, s.inHasSpace = sp
  revert st r d sp; decide

theorem key_writeExitT0 : keySelects 0b110100#6 0b100000#6 (s.key r false) = (s.blk.fsm == 2#2) := by
  unfold State.key
  generalize s.blk.fsm = st, s.outHasData = d, s.inHasSpace = sp
  revert st r d sp; decide

theorem key_writeExitD0 :
    keySelects 0b110110#6 0b100100#6 (s.key r true) = (s.blk.fsm == 2#2 && !s.blk.outq.dataAvailable) := by
  unfold State.key State.outHasData
  generalize s.blk.fsm = st, s.blk.outq.dataAvailable = d, s.inHasSpace = sp
  revert st r d sp; decide

end Rows

/-- A key has no row exactly when its state code is the reserved one (R105, R169). -/
theorem nextFsm_key_none {s : State} {r t : Bool} : nextFsm (s.key r t) = none ↔ s.blk.fsm = RESERVED := by
  unfold State.key
  generalize s.blk.fsm = st, s.outHasData = d, s.inHasSpace = sp
  revert st r t d sp; decide

theorem key_enq (space : Bool) : keySelects 0b11#2 0b11#2 (qwKey true space) = space := by revert space; decide
theorem key_enqRefused (space : Bool) : keySelects 0b11#2 0b10#2 (qwKey true space) = !space := by revert space; decide
theorem key_deq (data : Bool) : keySelects 0b11#2 0b11#2 (qrKey true data) = data := by revert data; decide
theorem key_deqEmpty (data : Bool) : keySelects 0b11#2 0b10#2 (qrKey true data) = !data := by revert data; decide

/-- A next state that the rows give is one of the three defined codes. -/
theorem nextFsm_defined {key : BitVec 6} {st : BitVec 2} (h : nextFsm key = some st) :
    st = IDLE ∨ st = READING ∨ st = WRITING := by
  revert h; revert key st; decide

/-- `read_strobe` and `INQ.w_en` are the same signal (41_bridge_fsm.md R171, R173). -/
theorem State.po_readStrobe (s : State) (r t : Bool) : (s.po r t).readStrobe = s.wEn r := rfl

/-- `write_strobe` and `OUTQ.r_en` are the same signal (41_bridge_fsm.md R174, R178). -/
theorem State.po_writeStrobe (s : State) (r t : Bool) : (s.po r t).writeStrobe = s.rEn t := rfl

end Sys2Proof.Machine
end

