-- ==== Sys2Proof/Laws/Memory.lean ====
section
/-! SUPPORT. The storage: a read after a write, the frame of a write, and the canonical form every write keeps. -/

namespace Sys2Proof.Machine

@[simp] theorem Memory.read_nil (i : Nat) : Memory.read [] i = none := rfl

theorem Memory.read_write_same (m : Memory) (i : Nat) (w : Word) : Memory.read (Memory.write m i w) i = some w := by
  induction m with
  | nil => simp [Memory.write, Memory.read]
  | cons e m ih =>
    obtain ⟨j, v⟩ := e
    by_cases h1 : i < j
    · simp [Memory.write, Memory.read, h1]
    · by_cases h2 : i = j
      · simp [Memory.write, Memory.read, h2]
      · have h3 : ¬ j = i := fun h => h2 h.symm
        simp [Memory.write, Memory.read, h1, h2, h3, ih]

theorem Memory.read_write_other (m : Memory) {i k : Nat} (w : Word) (h : k ≠ i) :
    Memory.read (Memory.write m i w) k = Memory.read m k := by
  induction m with
  | nil => simp [Memory.write, Memory.read, h.symm]
  | cons e m ih =>
    obtain ⟨j, v⟩ := e
    by_cases h1 : i < j
    · simp [Memory.write, Memory.read, h1, h.symm]
    · by_cases h2 : i = j
      · subst h2
        simp [Memory.write, Memory.read, h.symm]
      · simp [Memory.write, Memory.read, h1, h2, ih]

theorem memRead_write_same (era : Nat) (id : QueueId) (m : Memory) (i : Nat) (w : Word) :
    memRead era id (Memory.write m i w) i = w := by
  simp [memRead, Memory.read_write_same]

theorem memRead_write_other (era : Nat) (id : QueueId) (m : Memory) {i k : Nat} (w : Word) (h : k ≠ i) :
    memRead era id (Memory.write m i w) k = memRead era id m k := by
  simp [memRead, Memory.read_write_other m w h]

theorem Memory.wfFrom_write {depth lo i : Nat} {m : Memory} (w : Word) (hm : Memory.wfFrom depth lo m = true)
    (hlo : lo ≤ i) (hi : i < depth) : Memory.wfFrom depth lo (Memory.write m i w) = true := by
  induction m generalizing lo with
  | nil => simp [Memory.write, Memory.wfFrom, hlo, hi]
  | cons e m ih =>
    obtain ⟨j, v⟩ := e
    simp only [Memory.wfFrom, Bool.and_eq_true, decide_eq_true_eq] at hm
    obtain ⟨⟨h1, h2⟩, h3⟩ := hm
    by_cases hij : i < j
    · have : i + 1 ≤ j := hij
      simp [Memory.write, Memory.wfFrom, hij, hlo, hi, h2, h3, this]
    · by_cases he : i = j
      · subst he
        simp [Memory.write, Memory.wfFrom, hlo, hi, h3]
      · have : j + 1 ≤ i := by omega
        simp [Memory.write, Memory.wfFrom, hij, he, h1, h2, ih h3 this]

/-- A write inside the storage keeps the canonical form. -/
theorem Memory.wf_write {depth i : Nat} {m : Memory} (w : Word) (hm : Memory.wf depth m = true) (hi : i < depth) :
    Memory.wf depth (Memory.write m i w) = true :=
  Memory.wfFrom_write w hm (Nat.zero_le i) hi

/-- A pointer's storage index lies in the storage. -/
theorem indexOf_lt {a : Nat} (p : BitVec (a + 1)) : indexOf p < 2 ^ a := Nat.mod_lt _ (Nat.two_pow_pos a)

/-- The one operation that writes storage keeps its form. -/
theorem Queue.enqueue_wf {a : Nat} (q : Queue a) (w : Word) (h : Memory.wf (2 ^ a) q.mem = true) :
    Memory.wf (2 ^ a) (q.enqueue w).mem = true :=
  Memory.wf_write w h (indexOf_lt q.wptrBin)

theorem Queue.producerOp_wf {a : Nat} (q : Queue a) (wEn : Bool) (w : Word) (h : Memory.wf (2 ^ a) q.mem = true) :
    Memory.wf (2 ^ a) (q.producerOp wEn w).mem = true := by
  unfold Queue.producerOp
  split
  · exact q.enqueue_wf w h
  · exact h

/-- The storage after reset has the form. -/
theorem State.reset_wf :
    Memory.wf State.reset.cfg.depth State.reset.blk.inq.mem = true ∧
    Memory.wf State.reset.cfg.depth State.reset.blk.outq.mem = true := ⟨rfl, rfl⟩

end Sys2Proof.Machine
end

