-- ==== Sys2Proof/Laws/State.lean ====
section
/-! SUPPORT. One lemma per field per update, true by rfl: later proofs need not unfold a record update. -/

namespace Sys2Proof.Machine

section Queue

variable {a : Nat} (q : Queue a) (w : Word) (p : BitVec (a + 1)) (n : Nat)

@[simp] theorem Queue.enqueue_wptrBin : (q.enqueue w).wptrBin = nextPtr q.wptrBin := rfl
@[simp] theorem Queue.enqueue_wptrGray : (q.enqueue w).wptrGray = bin2gray (nextPtr q.wptrBin) := rfl
@[simp] theorem Queue.enqueue_wRsync1 : (q.enqueue w).wRsync1 = q.wRsync1 := rfl
@[simp] theorem Queue.enqueue_wRsync2 : (q.enqueue w).wRsync2 = q.wRsync2 := rfl
@[simp] theorem Queue.enqueue_rptrBin : (q.enqueue w).rptrBin = q.rptrBin := rfl
@[simp] theorem Queue.enqueue_rptrGray : (q.enqueue w).rptrGray = q.rptrGray := rfl
@[simp] theorem Queue.enqueue_rWsync1 : (q.enqueue w).rWsync1 = q.rWsync1 := rfl
@[simp] theorem Queue.enqueue_rWsync2 : (q.enqueue w).rWsync2 = q.rWsync2 := rfl
@[simp] theorem Queue.enqueue_mem : (q.enqueue w).mem = Memory.write q.mem (indexOf q.wptrBin) w := rfl
@[simp] theorem Queue.enqueue_ghost : (q.enqueue w).ghost = q.ghost.enq w := rfl

@[simp] theorem Queue.dequeue_wptrBin : (q.dequeue w).wptrBin = q.wptrBin := rfl
@[simp] theorem Queue.dequeue_wptrGray : (q.dequeue w).wptrGray = q.wptrGray := rfl
@[simp] theorem Queue.dequeue_wRsync1 : (q.dequeue w).wRsync1 = q.wRsync1 := rfl
@[simp] theorem Queue.dequeue_wRsync2 : (q.dequeue w).wRsync2 = q.wRsync2 := rfl
@[simp] theorem Queue.dequeue_rptrBin : (q.dequeue w).rptrBin = nextPtr q.rptrBin := rfl
@[simp] theorem Queue.dequeue_rptrGray : (q.dequeue w).rptrGray = bin2gray (nextPtr q.rptrBin) := rfl
@[simp] theorem Queue.dequeue_rWsync1 : (q.dequeue w).rWsync1 = q.rWsync1 := rfl
@[simp] theorem Queue.dequeue_rWsync2 : (q.dequeue w).rWsync2 = q.rWsync2 := rfl
@[simp] theorem Queue.dequeue_mem : (q.dequeue w).mem = q.mem := rfl
@[simp] theorem Queue.dequeue_ghost : (q.dequeue w).ghost = q.ghost.deq w := rfl

@[simp] theorem Queue.shiftR2W_wptrBin : (q.shiftR2W p n).wptrBin = q.wptrBin := rfl
@[simp] theorem Queue.shiftR2W_wptrGray : (q.shiftR2W p n).wptrGray = q.wptrGray := rfl
@[simp] theorem Queue.shiftR2W_wRsync1 : (q.shiftR2W p n).wRsync1 = p := rfl
@[simp] theorem Queue.shiftR2W_wRsync2 : (q.shiftR2W p n).wRsync2 = q.wRsync1 := rfl
@[simp] theorem Queue.shiftR2W_rptrBin : (q.shiftR2W p n).rptrBin = q.rptrBin := rfl
@[simp] theorem Queue.shiftR2W_rptrGray : (q.shiftR2W p n).rptrGray = q.rptrGray := rfl
@[simp] theorem Queue.shiftR2W_rWsync1 : (q.shiftR2W p n).rWsync1 = q.rWsync1 := rfl
@[simp] theorem Queue.shiftR2W_rWsync2 : (q.shiftR2W p n).rWsync2 = q.rWsync2 := rfl
@[simp] theorem Queue.shiftR2W_mem : (q.shiftR2W p n).mem = q.mem := rfl
@[simp] theorem Queue.shiftR2W_ghost : (q.shiftR2W p n).ghost = q.ghost.syncR n := rfl

@[simp] theorem Queue.shiftW2R_wptrBin : (q.shiftW2R p n).wptrBin = q.wptrBin := rfl
@[simp] theorem Queue.shiftW2R_wptrGray : (q.shiftW2R p n).wptrGray = q.wptrGray := rfl
@[simp] theorem Queue.shiftW2R_wRsync1 : (q.shiftW2R p n).wRsync1 = q.wRsync1 := rfl
@[simp] theorem Queue.shiftW2R_wRsync2 : (q.shiftW2R p n).wRsync2 = q.wRsync2 := rfl
@[simp] theorem Queue.shiftW2R_rptrBin : (q.shiftW2R p n).rptrBin = q.rptrBin := rfl
@[simp] theorem Queue.shiftW2R_rptrGray : (q.shiftW2R p n).rptrGray = q.rptrGray := rfl
@[simp] theorem Queue.shiftW2R_rWsync1 : (q.shiftW2R p n).rWsync1 = p := rfl
@[simp] theorem Queue.shiftW2R_rWsync2 : (q.shiftW2R p n).rWsync2 = q.rWsync1 := rfl
@[simp] theorem Queue.shiftW2R_mem : (q.shiftW2R p n).mem = q.mem := rfl
@[simp] theorem Queue.shiftW2R_ghost : (q.shiftW2R p n).ghost = q.ghost.syncW n := rfl

end Queue

section Ghost

variable (g : Ghost) (w : Word) (n : Nat)

@[simp] theorem Ghost.enq_wc : (g.enq w).wc = g.wc + 1 := rfl
@[simp] theorem Ghost.enq_rc : (g.enq w).rc = g.rc := rfl
@[simp] theorem Ghost.enq_ws1 : (g.enq w).ws1 = g.ws1 := rfl
@[simp] theorem Ghost.enq_ws2 : (g.enq w).ws2 = g.ws2 := rfl
@[simp] theorem Ghost.enq_rs1 : (g.enq w).rs1 = g.rs1 := rfl
@[simp] theorem Ghost.enq_rs2 : (g.enq w).rs2 = g.rs2 := rfl
@[simp] theorem Ghost.enq_contents : (g.enq w).contents = g.contents ++ [w] := rfl
@[simp] theorem Ghost.enq_enqueued : (g.enq w).enqueued = g.enqueued ++ [w] := rfl
@[simp] theorem Ghost.enq_dequeued : (g.enq w).dequeued = g.dequeued := rfl
@[simp] theorem Ghost.deq_wc : (g.deq w).wc = g.wc := rfl
@[simp] theorem Ghost.deq_rc : (g.deq w).rc = g.rc + 1 := rfl
@[simp] theorem Ghost.deq_ws1 : (g.deq w).ws1 = g.ws1 := rfl
@[simp] theorem Ghost.deq_ws2 : (g.deq w).ws2 = g.ws2 := rfl
@[simp] theorem Ghost.deq_rs1 : (g.deq w).rs1 = g.rs1 := rfl
@[simp] theorem Ghost.deq_rs2 : (g.deq w).rs2 = g.rs2 := rfl
@[simp] theorem Ghost.deq_contents : (g.deq w).contents = g.contents.tail := rfl
@[simp] theorem Ghost.deq_enqueued : (g.deq w).enqueued = g.enqueued := rfl
@[simp] theorem Ghost.deq_dequeued : (g.deq w).dequeued = g.dequeued ++ [w] := rfl
@[simp] theorem Ghost.syncR_wc : (g.syncR n).wc = g.wc := rfl
@[simp] theorem Ghost.syncR_rc : (g.syncR n).rc = g.rc := rfl
@[simp] theorem Ghost.syncR_ws1 : (g.syncR n).ws1 = g.ws1 := rfl
@[simp] theorem Ghost.syncR_ws2 : (g.syncR n).ws2 = g.ws2 := rfl
@[simp] theorem Ghost.syncR_rs1 : (g.syncR n).rs1 = n := rfl
@[simp] theorem Ghost.syncR_rs2 : (g.syncR n).rs2 = g.rs1 := rfl
@[simp] theorem Ghost.syncR_contents : (g.syncR n).contents = g.contents := rfl
@[simp] theorem Ghost.syncR_enqueued : (g.syncR n).enqueued = g.enqueued := rfl
@[simp] theorem Ghost.syncR_dequeued : (g.syncR n).dequeued = g.dequeued := rfl
@[simp] theorem Ghost.syncW_wc : (g.syncW n).wc = g.wc := rfl
@[simp] theorem Ghost.syncW_rc : (g.syncW n).rc = g.rc := rfl
@[simp] theorem Ghost.syncW_ws1 : (g.syncW n).ws1 = n := rfl
@[simp] theorem Ghost.syncW_ws2 : (g.syncW n).ws2 = g.ws1 := rfl
@[simp] theorem Ghost.syncW_rs1 : (g.syncW n).rs1 = g.rs1 := rfl
@[simp] theorem Ghost.syncW_rs2 : (g.syncW n).rs2 = g.rs2 := rfl
@[simp] theorem Ghost.syncW_contents : (g.syncW n).contents = g.contents := rfl
@[simp] theorem Ghost.syncW_enqueued : (g.syncW n).enqueued = g.enqueued := rfl
@[simp] theorem Ghost.syncW_dequeued : (g.syncW n).dequeued = g.dequeued := rfl

end Ghost

section Block

variable {a : Nat} (b : Block a) (q : Queue a) (id : QueueId)

@[simp] theorem Block.queue_inq : b.queue .inq = b.inq := rfl
@[simp] theorem Block.queue_outq : b.queue .outq = b.outq := rfl
@[simp] theorem Block.setQueue_inq_inq : (b.setQueue .inq q).inq = q := rfl
@[simp] theorem Block.setQueue_inq_outq : (b.setQueue .inq q).outq = b.outq := rfl
@[simp] theorem Block.setQueue_outq_outq : (b.setQueue .outq q).outq = q := rfl
@[simp] theorem Block.setQueue_outq_inq : (b.setQueue .outq q).inq = b.inq := rfl
@[simp] theorem Block.setQueue_fsm : (b.setQueue id q).fsm = b.fsm := by cases id <;> rfl
@[simp] theorem Block.setQueue_queue : (b.setQueue id q).queue id = q := by cases id <;> rfl

end Block

section State

variable (s : State) (b : Block s.cfg.a) (o : Obs s.cfg.a) (st : BitVec 2) (ws : List Word) (w : OpWord) (q : Queue s.cfg.a)

@[simp] theorem State.commit_cfg : (s.commit b o).cfg = s.cfg := rfl
@[simp] theorem State.commit_blk : (s.commit b o).blk = b := rfl
@[simp] theorem State.commit_dropped : (s.commit b o).dropped = s.dropped := rfl
@[simp] theorem State.commit_obs : (s.commit b o).obs = o := rfl
@[simp] theorem State.commit_pending : (s.commit b o).pending = s.pending := rfl
@[simp] theorem State.commit_lone : (s.commit b o).lone = s.lone := rfl
@[simp] theorem State.commit_looks : (s.commit b o).looks = s.looks + 2 := rfl
@[simp] theorem State.commit_era : (s.commit b o).era = s.era := rfl
@[simp] theorem State.unselected_cfg : s.unselected.cfg = s.cfg := rfl
@[simp] theorem State.unselected_blk : s.unselected.blk = s.blk := rfl
@[simp] theorem State.unselected_dropped : s.unselected.dropped = s.dropped := rfl
@[simp] theorem State.unselected_obs : s.unselected.obs = Obs.blank s.cfg.a := rfl
@[simp] theorem State.unselected_pending : s.unselected.pending = s.pending := rfl
@[simp] theorem State.unselected_lone : s.unselected.lone = s.lone := rfl
@[simp] theorem State.unselected_looks : s.unselected.looks = s.looks + 2 := rfl
@[simp] theorem State.unselected_era : s.unselected.era = s.era := rfl

@[simp] theorem State.setFsm_cfg : (s.setFsm st).cfg = s.cfg := rfl
@[simp] theorem State.setFsm_fsm : (s.setFsm st).blk.fsm = st := rfl
@[simp] theorem State.setFsm_inq : (s.setFsm st).blk.inq = s.blk.inq := rfl
@[simp] theorem State.setFsm_outq : (s.setFsm st).blk.outq = s.blk.outq := rfl
@[simp] theorem State.setFsm_dropped : (s.setFsm st).dropped = s.dropped := rfl
@[simp] theorem State.setFsm_obs : (s.setFsm st).obs = s.obs := rfl
@[simp] theorem State.setFsm_pending : (s.setFsm st).pending = s.pending := rfl
@[simp] theorem State.setFsm_lone : (s.setFsm st).lone = s.lone := rfl
@[simp] theorem State.setFsm_looks : (s.setFsm st).looks = s.looks := rfl
@[simp] theorem State.setFsm_era : (s.setFsm st).era = s.era := rfl

@[simp] theorem State.drop_cfg : (s.drop ws).cfg = s.cfg := rfl
@[simp] theorem State.drop_blk : (s.drop ws).blk = s.blk := rfl
@[simp] theorem State.drop_dropped : (s.drop ws).dropped = s.dropped ++ ws := rfl
@[simp] theorem State.drop_obs : (s.drop ws).obs = s.obs := rfl
@[simp] theorem State.drop_pending : (s.drop ws).pending = s.pending := rfl
@[simp] theorem State.drop_lone : (s.drop ws).lone = s.lone := rfl
@[simp] theorem State.drop_looks : (s.drop ws).looks = s.looks := rfl
@[simp] theorem State.drop_era : (s.drop ws).era = s.era := rfl

@[simp] theorem State.present_cfg : (s.present w).cfg = s.cfg := rfl
@[simp] theorem State.present_blk : (s.present w).blk = s.blk := rfl
@[simp] theorem State.present_dropped : (s.present w).dropped = s.dropped := rfl
@[simp] theorem State.present_obs : (s.present w).obs = s.obs := rfl
@[simp] theorem State.present_pending : (s.present w).pending = w :: s.pending := rfl
@[simp] theorem State.present_lone : (s.present w).lone = s.lone := rfl
@[simp] theorem State.present_looks : (s.present w).looks = s.looks := rfl
@[simp] theorem State.present_era : (s.present w).era = s.era := rfl

@[simp] theorem State.queue_inq : s.queue .inq = s.blk.inq := rfl
@[simp] theorem State.queue_outq : s.queue .outq = s.blk.outq := rfl

variable (i : Instr)

@[simp] theorem State.allow_cfg : (s.allow i).cfg = s.cfg := rfl
@[simp] theorem State.allow_blk : (s.allow i).blk = s.blk := rfl
@[simp] theorem State.allow_dropped : (s.allow i).dropped = s.dropped := rfl
@[simp] theorem State.allow_obs : (s.allow i).obs = s.obs := rfl
@[simp] theorem State.allow_pending : (s.allow i).pending = s.pending := rfl
@[simp] theorem State.allow_lone : (s.allow i).lone = (s.lone || !isBlockStep i) := rfl
@[simp] theorem State.allow_looks : (s.allow i).looks = s.looks := rfl
@[simp] theorem State.allow_era : (s.allow i).era = s.era := rfl

variable (id : QueueId)

@[simp] theorem State.setQueue_cfg : (s.setQueue id q).cfg = s.cfg := rfl
@[simp] theorem State.setQueue_blk : (s.setQueue id q).blk = s.blk.setQueue id q := rfl
@[simp] theorem State.setQueue_dropped : (s.setQueue id q).dropped = s.dropped := rfl
@[simp] theorem State.setQueue_obs : (s.setQueue id q).obs = s.obs := rfl
@[simp] theorem State.setQueue_pending : (s.setQueue id q).pending = s.pending := rfl
@[simp] theorem State.setQueue_lone : (s.setQueue id q).lone = s.lone := rfl
@[simp] theorem State.setQueue_looks : (s.setQueue id q).looks = s.looks := rfl
@[simp] theorem State.setQueue_era : (s.setQueue id q).era = s.era := rfl

end State

end Sys2Proof.Machine
end

