-- ==== Sys2Proof/Laws/Ops.lean ====
section
/-! SUPPORT. One lemma per shared operation that says once what it can do. -/

namespace Sys2Proof.Machine

/-- Everything a gated operation can do: it is performed where it is selected, and changes no register elsewhere. -/
theorem State.perform_next {s t t' : State} {b : Bool} :
    s.perform b t = .next t' ↔ (b = true ∧ t' = t) ∨ (b = false ∧ t' = s.unselected) := by
  cases b <;> simp [State.perform, eq_comm]

/-- Everything a controller transition can do when it answers a next state. -/
theorem State.performRow_next {s t t' : State} {mask value key : BitVec 6} :
    s.performRow mask value key t = .next t' ↔
      nextFsm key ≠ none ∧ ((keySelects mask value key = true ∧ t' = t) ∨
        (keySelects mask value key = false ∧ t' = s.unselected)) := by
  unfold State.performRow
  split <;> simp [State.perform_next, *]

/-- A controller transition stops only where its key has no row. -/
theorem State.performRow_fault {s t : State} {mask value key : BitVec 6} {r : Fault} :
    s.performRow mask value key t = .fault r ↔ nextFsm key = none := by
  unfold State.performRow
  cases r
  split <;> simp [State.perform, *]

/-- Nothing gated is refused. -/
theorem State.performRow_not_refused {s t : State} {mask value key : BitVec 6} {r : Refusal} :
    s.performRow mask value key t ≠ .refused r := by
  unfold State.performRow
  split <;> simp [State.perform]

/-- Where a row is selected, its transition is performed. -/
theorem State.performRow_selected {s t : State} {mask value key : BitVec 6} (hd : nextFsm key ≠ none)
    (h : keySelects mask value key = true) : s.performRow mask value key t = .next t :=
  performRow_next.2 ⟨hd, .inl ⟨h, rfl⟩⟩

/-- A producer port either enqueues, when `enq_fire` holds, or leaves the queue alone. -/
theorem Queue.producerOp_cases {a : Nat} (q : Queue a) (wEn : Bool) (w : Word) :
    (q.enqFire wEn = true ∧ q.producerOp wEn w = q.enqueue w) ∨ (q.enqFire wEn = false ∧ q.producerOp wEn w = q) := by
  cases h : q.enqFire wEn <;> simp [Queue.producerOp, h]

/-- A consumer port either dequeues, when `deq_fire` holds, or leaves the queue alone. -/
theorem Queue.consumerOp_cases {a : Nat} (q : Queue a) (rEn : Bool) (w : Word) :
    (q.deqFire rEn = true ∧ q.consumerOp rEn w = q.dequeue w) ∨ (q.deqFire rEn = false ∧ q.consumerOp rEn w = q) := by
  cases h : q.deqFire rEn <;> simp [Queue.consumerOp, h]

/-! ### What a port operation leaves alone -/

section Frames

variable {a : Nat} (q : Queue a) (en : Bool) (w : Word)

@[simp] theorem Queue.producerOp_wRsync1 : (q.producerOp en w).wRsync1 = q.wRsync1 := by unfold Queue.producerOp; split <;> rfl
@[simp] theorem Queue.producerOp_wRsync2 : (q.producerOp en w).wRsync2 = q.wRsync2 := by unfold Queue.producerOp; split <;> rfl
@[simp] theorem Queue.producerOp_rptrBin : (q.producerOp en w).rptrBin = q.rptrBin := by unfold Queue.producerOp; split <;> rfl
@[simp] theorem Queue.producerOp_rptrGray : (q.producerOp en w).rptrGray = q.rptrGray := by unfold Queue.producerOp; split <;> rfl
@[simp] theorem Queue.producerOp_rWsync1 : (q.producerOp en w).rWsync1 = q.rWsync1 := by unfold Queue.producerOp; split <;> rfl
@[simp] theorem Queue.producerOp_rWsync2 : (q.producerOp en w).rWsync2 = q.rWsync2 := by unfold Queue.producerOp; split <;> rfl

@[simp] theorem Queue.consumerOp_wptrBin : (q.consumerOp en w).wptrBin = q.wptrBin := by unfold Queue.consumerOp; split <;> rfl
@[simp] theorem Queue.consumerOp_wptrGray : (q.consumerOp en w).wptrGray = q.wptrGray := by unfold Queue.consumerOp; split <;> rfl
@[simp] theorem Queue.consumerOp_wRsync1 : (q.consumerOp en w).wRsync1 = q.wRsync1 := by unfold Queue.consumerOp; split <;> rfl
@[simp] theorem Queue.consumerOp_wRsync2 : (q.consumerOp en w).wRsync2 = q.wRsync2 := by unfold Queue.consumerOp; split <;> rfl
@[simp] theorem Queue.consumerOp_rWsync1 : (q.consumerOp en w).rWsync1 = q.rWsync1 := by unfold Queue.consumerOp; split <;> rfl
@[simp] theorem Queue.consumerOp_rWsync2 : (q.consumerOp en w).rWsync2 = q.rWsync2 := by unfold Queue.consumerOp; split <;> rfl
@[simp] theorem Queue.consumerOp_mem : (q.consumerOp en w).mem = q.mem := by unfold Queue.consumerOp; split <;> rfl

@[simp] theorem Queue.producerOp_dataAvailable : (q.producerOp en w).dataAvailable = q.dataAvailable := by
  simp [Queue.dataAvailable, Queue.empty, Queue.rLevel]
@[simp] theorem Queue.consumerOp_spaceAvailable : (q.consumerOp en w).spaceAvailable = q.spaceAvailable := by
  simp [Queue.spaceAvailable, Queue.full, Queue.wLevel]

end Frames

/-- Everything a P edge can do: it answers a next state only with the transition its key selects, and then this one. -/
theorem State.peripheralTick_next {s t : State} {v : PI} (h : s.peripheralTick v = .next t) :
    ∃ st, nextFsm (s.key v.rxf v.txe) = some st ∧
      t = (s.commit
        { fsm := st, inq := s.blk.inq.producerTick (s.wEn v.rxf) v.dataIn,
          outq := s.blk.outq.consumerTick (s.rEn v.txe) s.outWord } (s.peripheralObs v)).drop (s.lost v) := by
  unfold State.peripheralTick at h
  split at h
  · cases h
  · next st hst => exact ⟨st, hst, by cases h; rfl⟩

/-- Everything a coincident edge can do. -/
theorem State.coincidentTick_next {s t : State} {v : PI} {x : HI} {d : Draws} (h : s.coincidentTick v x d = .next t) :
    ∃ st, nextFsm (s.key v.rxf v.txe) = some st ∧
      t = (s.commit
        { fsm := st, inq := s.blk.inq.bothTick (s.wEn v.rxf) v.dataIn x.pollReady s.inWord d.d1 d.d4,
          outq := s.blk.outq.bothTick x.submitValid x.submitWord (s.rEn v.txe) s.outWord d.d3 d.d2 }
        (s.coincidentObs v x)).drop (s.lost v) := by
  unfold State.coincidentTick at h
  split at h
  · cases h
  · next st hst => exact ⟨st, hst, by cases h; rfl⟩

/-- A P edge stops only where its key has no row. -/
theorem State.peripheralTick_fault {s : State} {v : PI} {r : Fault} (h : s.peripheralTick v = .fault r) :
    nextFsm (s.key v.rxf v.txe) = none := by
  unfold State.peripheralTick at h
  split at h
  · assumption
  · cases h

/-- Everything a step can do when it answers a next state: nothing pending, a word that presents no edge (no operation, or
a row that is only part of a tick), or an operation. -/
theorem step_next {s t : State} (h : step s = .next t) :
    s.cfg.legal = true ∧
      ((s.pending = [] ∧ t = s) ∨
       (∃ w rest, s.pending = w :: rest ∧
        ((decode w ≠ .bad .partialReset ∧ (∀ i, decode w = .op i → s.lone = false ∧ isBlockStep i = false) ∧
            t = { s with pending := rest }) ∨
         (∃ i, decode w = .op i ∧ (s.lone || isBlockStep i) = true ∧ exec i { s with pending := rest } = .next t)))) := by
  unfold step at h
  split at h
  · next hl =>
    refine ⟨hl, ?_⟩
    split at h
    · next hp => cases h; exact .inl ⟨hp, rfl⟩
    · next w rest hp =>
      refine .inr ⟨w, rest, hp, ?_⟩
      split at h
      · next i hd =>
        split at h
        · next ha => exact .inr ⟨i, hd, ha, h⟩
        · next ha =>
          cases h
          refine .inl ⟨by simp [hd], fun j hj => ?_, rfl⟩
          cases hd.symm.trans hj
          simpa using ha
      · next hd => cases h; exact .inl ⟨by simp [hd], by simp [hd], rfl⟩
      · cases h
      all_goals next hd => cases h; exact .inl ⟨by simp [hd], by simp [hd], rfl⟩
  · cases h

/-- The nine rows of key `FSM` are disjoint. -/
theorem fsmRows_disjoint : fsmRows.Pairwise fun r r' =>
    ∀ k : BitVec 6, ¬ (keySelects r.1 r.2.1 k = true ∧ keySelects r'.1 r'.2.1 k = true) := by
  decide

end Sys2Proof.Machine
end

