-- ==== Sys2Proof/Laws/PerInstr.lean ====
section
/-! SUPPORT. The per-instruction family: the key an operation's word carries matches its row of opcode_table.json. -/

namespace Sys2Proof.Laws

/-- The key field of the encoded operation, masked by its row's `mask`, is its row's `match` (30_encoding.md section 4). -/
def KeyMatchesRow.Statement (i : Instr) : Prop := (encodeFields i).key &&& rowMask i = rowMatch i

theorem KeyMatchesRow.fsmIdleRead (t d s : Bool) : KeyMatchesRow.Statement (.fsmIdleRead t d s) := by
  revert t d s; unfold KeyMatchesRow.Statement; decide
theorem KeyMatchesRow.fsmIdleWrite (s : Bool) : KeyMatchesRow.Statement (.fsmIdleWrite s) := by
  revert s; unfold KeyMatchesRow.Statement; decide
theorem KeyMatchesRow.fsmIdleHoldT0 (d s : Bool) : KeyMatchesRow.Statement (.fsmIdleHoldT0 d s) := by
  revert d s; unfold KeyMatchesRow.Statement; decide
theorem KeyMatchesRow.fsmIdleHoldD0 (s : Bool) : KeyMatchesRow.Statement (.fsmIdleHoldD0 s) := by
  revert s; unfold KeyMatchesRow.Statement; decide
theorem KeyMatchesRow.fsmReadCont (t d s : Bool) (dataIn : Word) :
    KeyMatchesRow.Statement (.fsmReadCont t d s dataIn) := by
  change key6 1#2 true t d s &&& 0b111000#8 = 0b011000#8
  revert t d s; decide
theorem KeyMatchesRow.fsmReadExit (t d s : Bool) : KeyMatchesRow.Statement (.fsmReadExit t d s) := by
  revert t d s; unfold KeyMatchesRow.Statement; decide
theorem KeyMatchesRow.fsmWriteCont (r s : Bool) : KeyMatchesRow.Statement (.fsmWriteCont r s) := by
  revert r s; unfold KeyMatchesRow.Statement; decide
theorem KeyMatchesRow.fsmWriteExitT0 (r d s : Bool) : KeyMatchesRow.Statement (.fsmWriteExitT0 r d s) := by
  revert r d s; unfold KeyMatchesRow.Statement; decide
theorem KeyMatchesRow.fsmWriteExitD0 (r s : Bool) : KeyMatchesRow.Statement (.fsmWriteExitD0 r s) := by
  revert r s; unfold KeyMatchesRow.Statement; decide
theorem KeyMatchesRow.fsmReserved (r t d s : Bool) : KeyMatchesRow.Statement (.fsmReserved r t d s) := by
  revert r t d s; unfold KeyMatchesRow.Statement; decide
theorem KeyMatchesRow.enq (q : QueueId) (wData : Word) : KeyMatchesRow.Statement (.enq q wData) :=
  show key2 true true &&& 0b11#8 = 0b11#8 by decide
theorem KeyMatchesRow.enqRefused (q : QueueId) (wData : Word) : KeyMatchesRow.Statement (.enqRefused q wData) :=
  show key2 true false &&& 0b11#8 = 0b10#8 by decide
theorem KeyMatchesRow.prodIdle (q : QueueId) (s : Bool) : KeyMatchesRow.Statement (.prodIdle q s) := by
  change key2 false s &&& 0b10#8 = 0b00#8
  revert s; decide
theorem KeyMatchesRow.syncR2W (q : QueueId) (e s : Bool) : KeyMatchesRow.Statement (.syncR2W q e s) := by
  change key2 e s &&& 0b00#8 = 0b00#8
  revert e s; decide
theorem KeyMatchesRow.deq (q : QueueId) : KeyMatchesRow.Statement (.deq q) :=
  show key2 true true &&& 0b11#8 = 0b11#8 by decide
theorem KeyMatchesRow.deqEmpty (q : QueueId) : KeyMatchesRow.Statement (.deqEmpty q) :=
  show key2 true false &&& 0b11#8 = 0b10#8 by decide
theorem KeyMatchesRow.consIdle (q : QueueId) (a : Bool) : KeyMatchesRow.Statement (.consIdle q a) := by
  change key2 false a &&& 0b10#8 = 0b00#8
  revert a; decide
theorem KeyMatchesRow.syncW2R (q : QueueId) (e a : Bool) : KeyMatchesRow.Statement (.syncW2R q e a) := by
  change key2 e a &&& 0b00#8 = 0b00#8
  revert e a; decide
theorem KeyMatchesRow.submit (p : Bool) (word : Word) : KeyMatchesRow.Statement (.submit p word) := by
  change key2 true p &&& 0b10#8 = 0b10#8
  revert p; decide
theorem KeyMatchesRow.poll (s : Bool) (word : Word) : KeyMatchesRow.Statement (.poll s word) := by
  change key2 s true &&& 0b01#8 = 0b01#8
  revert s; decide
theorem KeyMatchesRow.advance (caller : Caller) : KeyMatchesRow.Statement (.advance caller) := by
  cases caller with
  | host => exact show 0#8 &&& 0b11#8 = 0b00#8 by decide
  | peripheral pi => exact show 2#8 &&& 0b111#8 = 0b010#8 by decide
theorem KeyMatchesRow.fillLevel (q : QueueId) : KeyMatchesRow.Statement (.fillLevel q) :=
  show 0#8 &&& 0b0#8 = 0b0#8 by decide
theorem KeyMatchesRow.tickP (pi : PI) : KeyMatchesRow.Statement (.tickP pi) :=
  show 2#8 &&& 0b111#8 = 0b010#8 by decide
theorem KeyMatchesRow.tickH (hi : HI) : KeyMatchesRow.Statement (.tickH hi) :=
  show 1#8 &&& 0b111#8 = 0b001#8 by decide
theorem KeyMatchesRow.tickPH (pi : PI) (hi : HI) (draws : Draws) : KeyMatchesRow.Statement (.tickPH pi hi draws) :=
  show 3#8 &&& 0b111#8 = 0b011#8 by decide
theorem KeyMatchesRow.reset (p h : Bool) : KeyMatchesRow.Statement (.reset p h) := by
  revert p h; unfold KeyMatchesRow.Statement; decide

end Sys2Proof.Laws
end

