-- ==== Sys2Proof/Tests/Slice0.lean ====
section
/-! SUPPORT. Tests: well-formedness, decoding of words written out from the spec's encodings, the spec's worked examples one
step at a time, and a witness for each statement that has hypotheses. Expected values are the spec's. -/

namespace Sys2Proof.Tests

open Sys2Proof Sys2Proof.Machine Sys2Proof.Safety

/-! ### Well-formedness -/

/-- A poll without a submit slot carries no word (R98). -/
theorem test_wellFormed_refuses_poll_word : Instr.wellFormed (.poll false 1#16) = false := by decide
theorem test_wellFormed_accepts_poll : Instr.wellFormed (.poll false 0#16) = true := by decide
theorem test_wellFormed_accepts_poll_submit : Instr.wellFormed (.poll true 1#16) = true := by decide

/-! ### Decoding -/

/-- `001tds` with `t = 1`, `d = 0`, `s = 1` (R100). -/
theorem test_decode_fsmIdleRead : decode 0x000000000000010D = .op (.fsmIdleRead true false true) := by decide
/-- `00011s` with `s = 1` (R100). -/
theorem test_decode_fsmIdleWrite : decode 0x0000000000000107 = .op (.fsmIdleWrite true) := by decide
/-- `0000ds` with `d = 1`, `s = 0` (R162's example key). -/
theorem test_decode_fsmIdleHoldT0 : decode 0x0000000000000102 = .op (.fsmIdleHoldT0 true false) := by decide
/-- `00010s` with `s = 1` (R163's example key). -/
theorem test_decode_fsmIdleHoldD0 : decode 0x0000000000000105 = .op (.fsmIdleHoldD0 true) := by decide
/-- `011tds` with `data_in = 0x0002` (R164's example). -/
theorem test_decode_fsmReadCont : decode 0x0000000000020119 = .op (.fsmReadCont false false true 0x0002#16) := by decide
/-- `010tds` with `t = d = 1` (R165's example key). -/
theorem test_decode_fsmReadExit : decode 0x0000000000000116 = .op (.fsmReadExit true true false) := by decide
/-- `10r11s` with `r = 1` (R100). -/
theorem test_decode_fsmWriteCont : decode 0x000000000000012E = .op (.fsmWriteCont true false) := by decide
/-- `10r0ds` with `d = 1` (R167's example key). -/
theorem test_decode_fsmWriteExitT0 : decode 0x0000000000000122 = .op (.fsmWriteExitT0 false true false) := by decide
/-- `10r10s` with `r = s = 1` (R100). -/
theorem test_decode_fsmWriteExitD0 : decode 0x000000000000012D = .op (.fsmWriteExitD0 true true) := by decide
/-- `11rtds` with `t = 1` (R100). -/
theorem test_decode_fsmReserved : decode 0x0000000000000134 = .op (.fsmReserved false true false false) := by decide
/-- `QW = 11` (R101). -/
theorem test_decode_enq : decode 0x0100000000AB0203 = .op (.enq .outq 0x00AB#16) := by decide
/-- `QW = 10` (R101). -/
theorem test_decode_enqRefused : decode 0x00000000FFFF0202 = .op (.enqRefused .inq 0xFFFF#16) := by decide
/-- `QW = 0s` with `s = 1` (R101). -/
theorem test_decode_prodIdle : decode 0x0100000000000201 = .op (.prodIdle .outq true) := by decide
/-- `QW = es` with `e = 1` (R101). -/
theorem test_decode_syncR2W : decode 0x0100000000000302 = .op (.syncR2W .outq true false) := by decide
/-- `QR = 11` (R102). -/
theorem test_decode_deq : decode 0x0100000000000403 = .op (.deq .outq) := by decide
/-- `QR = 10` (R102). -/
theorem test_decode_deqEmpty : decode 0x0000000000000402 = .op (.deqEmpty .inq) := by decide
/-- `QR = 0a` (R102). -/
theorem test_decode_consIdle : decode 0x0000000000000400 = .op (.consIdle .inq false) := by decide
/-- `QR = ea` with `a = 1` (R102). -/
theorem test_decode_syncW2R : decode 0x0000000000000501 = .op (.syncW2R .inq false true) := by decide
/-- `HOST = 1p` with `p = 1` (R103). -/
theorem test_decode_submit : decode 0x000000C400000603 = .op (.submit true 0x0031#16) := by decide
/-- `HOST = s1` with `s = 1` (R103). -/
theorem test_decode_poll : decode 0x000000C400000703 = .op (.poll true 0x0031#16) := by decide
/-- `HOST = 00` (R103). -/
theorem test_decode_advanceHost : decode 0x0000000000000800 = .op (.advance .host) := by decide
/-- `STEP = 010` called by the peripheral (R206). -/
theorem test_decode_advancePeripheral : decode 0x0000000200120902 = .op (.advance (.peripheral ⟨true, false, 0x0012#16⟩)) := by decide
/-- No key (R207). -/
theorem test_decode_fillLevel : decode 0x0100000000000A00 = .op (.fillLevel .outq) := by decide
/-- `STEP = 010`, `rxf` in bit 17 of `PI` and `txe` in bit 16 (R96). -/
theorem test_decode_tickP : decode 0x0000000200210B02 = .op (.tickP ⟨true, false, 0x0021#16⟩) := by decide
/-- `STEP = 001`, `submit_valid` in bit 17 of `HI` and `poll_ready` in bit 16 (R98). -/
theorem test_decode_tickH : decode 0x000800C400000B01 = .op (.tickH ⟨true, false, 0x0031#16⟩) := by decide
/-- `STEP = 011` with draws `0100`: `d2` alone (R202). -/
theorem test_decode_tickPH : decode 0x0044000100230B03 = .op (.tickPH ⟨false, true, 0x0023#16⟩ ⟨false, true, 0#16⟩ ⟨false, true, false, false⟩) := by decide
/-- `STEP = 1ph` with `h = 1` (R104). -/
theorem test_decode_reset : decode 0x0000000000000B05 = .op (.reset false true) := by decide
/-- `STEP = 000` has no row (R104). -/
theorem test_decode_noStep : decode 0x0000000000000B00 = .noStep := by decide
/-- No port has code 13. -/
theorem test_decode_unknownPort : decode 0x0000000000000D00 = .bad .unknownPort := by decide
/-- The submit slot is not used at `HOST = 01` (R103). -/
theorem test_decode_undefinedKey : decode 0x0000000000000601 = .bad .undefinedKey := by decide
/-- A `TICK_H` takes no `PI` vector (R98). -/
theorem test_decode_reservedBits : decode 0x0000000200000B01 = .bad .reservedBits := by decide
/-- A reset of one domain alone (R313). -/
theorem test_decode_partialReset : decode 0x0000000000000C00 = .bad .partialReset := by decide
/-- Key `FSM` has six bits (R100). -/
theorem test_decode_wideKey : decode 0x0000000000000140 = .bad .undefinedKey := by decide
/-- Bare keys of opcode_table.json (log entry 4). -/
theorem test_decode_bare :
    decodeTableWord 8 0b001000 = some (.fsmIdleRead false false false) ∧
    decodeTableWord 8 0b011000 = some (.fsmReadCont false false false 0#16) ∧
    decodeTableWord 8 0b110000 = some (.fsmReserved false false false false) ∧
    decodeTableWord 8 0b00 = some (.advance .host) ∧ decodeTableWord 8 0b001 = some (.tickH ⟨false, false, 0#16⟩) ∧
    decodeTableWord 8 0b010 = some (.tickP ⟨false, false, 0#16⟩) ∧
    decodeTableWord 8 0b011 = some (.tickPH ⟨false, false, 0#16⟩ ⟨false, false, 0#16⟩ ⟨false, false, false, false⟩) := by
  decide

/-! ### One step at a time -/

/-- The next state meets `p`. -/
def ends (r : Result) (p : State → Bool) : Bool :=
  match r with
  | .next t => p t
  | .fault _ => false
  | .refused _ => false

/-- An empty queue of four entries. -/
def qEmpty : Queue 2 := Queue.reset 2

/-- The inbound queue of 95_test_vectors.md section 2.5: `0x0021`, `0x0022`, both visible to the consumer. -/
def qTwo : Queue 2 :=
  { qEmpty with
    wptrBin := 2, wptrGray := 3, rWsync1 := 3, rWsync2 := 3, mem := [(0, 0x0021), (1, 0x0022)]
    ghost := ⟨2, 0, 2, 2, 0, 0, [0x0021, 0x0022], [0x0021, 0x0022], []⟩ }

/-- Line 4 of section 2.3: four words, none visible to the consumer yet. -/
def qFull : Queue 2 :=
  { qEmpty with
    wptrBin := 4, wptrGray := 6, mem := [(0, 0x00A0), (1, 0x00A1), (2, 0x00A2), (3, 0x00A3)]
    ghost := ⟨4, 0, 0, 0, 0, 0, [0x00A0, 0x00A1, 0x00A2, 0x00A3], [0x00A0, 0x00A1, 0x00A2, 0x00A3], []⟩ }

/-- Two queues hold the same, whatever their types say. -/
def alike {a b : Nat} (q : Queue a) (r : Queue b) : Bool :=
  [q.wptrBin.toNat, q.wptrGray.toNat, q.wRsync1.toNat, q.wRsync2.toNat, q.rptrBin.toNat, q.rptrGray.toNat,
    q.rWsync1.toNat, q.rWsync2.toNat] ==
  [r.wptrBin.toNat, r.wptrGray.toNat, r.wRsync1.toNat, r.wRsync2.toNat, r.rptrBin.toNat, r.rptrGray.toNat,
    r.rWsync1.toNat, r.rWsync2.toNat] && q.mem == r.mem && q.ghost == r.ghost

/-- A state with the given controller state and queues. -/
def at2 (g : ReadGating) (fsm : BitVec 2) (inq outq : Queue 2) : State :=
  { State.resetWith ⟨2, g⟩ with blk := ⟨inq, outq, fsm⟩ }

/-- `IDLE`, `READING`, `WRITING` with nothing inbound and two words outbound. -/
def sIdle : State := at2 .gated IDLE qEmpty qTwo
def sReading : State := at2 .gated READING qEmpty qTwo
def sWriting : State := at2 .gated WRITING qEmpty qTwo

/-- R93, the table for `PW = 3`; R91 on the way back (section 2.1). -/
theorem test_gray_table : ([0, 1, 2, 3, 4, 5, 6, 7] : List (BitVec 3)).map bin2gray = [0, 1, 3, 2, 6, 7, 5, 4] := by decide
theorem test_gray_back : gray2bin (0b110 : BitVec 3) = 0b100 ∧ gray2bin (0b101 : BitVec 3) = 0b110 := by decide

/-- Section 2.1: the level wraps and the queue is full. -/
theorem test_flags_wrapped : ({ qEmpty with wptrBin := 0, wptrGray := 0, wRsync2 := 6 } : Queue 2).full = true := by decide

/-- R160's example: key `001111` goes to `READING`. -/
theorem test_fsmIdleRead :
    ends (exec (.fsmIdleRead true true true) sIdle) (fun t => t.blk.fsm == READING && alike t.blk.outq qTwo) = true := by decide
/-- R161's example. -/
theorem test_fsmIdleWrite : ends (exec (.fsmIdleWrite false) sIdle) (fun t => t.blk.fsm == WRITING) = true := by decide
/-- R162's example: `d = 1`, still `IDLE`. -/
theorem test_fsmIdleHoldT0 : ends (exec (.fsmIdleHoldT0 true false) sIdle) (fun t => t.blk.fsm == IDLE && alike t.blk.outq qTwo && alike t.blk.inq qEmpty) = true := by decide
/-- R163's example. -/
theorem test_fsmIdleHoldD0 :
    ends (exec (.fsmIdleHoldD0 true) (at2 .gated IDLE qEmpty qEmpty)) (fun t => t.blk.fsm == IDLE) = true := by decide
/-- R164's example, space available: the word is taken. -/
theorem test_fsmReadCont :
    ends (exec (.fsmReadCont false false true 0x0002) sReading)
      (fun t => t.blk.fsm == READING && Memory.read t.blk.inq.mem 0 == some 0x0002 && t.blk.inq.wptrBin == 1) = true := by
  decide
/-- R172: ungated and full, strobed and lost. -/
theorem test_fsmReadCont_ungated_full :
    ends (exec (.fsmReadCont false false false 0x0012) (at2 .ungated READING qFull qEmpty))
      (fun t => t.dropped == [0x0012] && t.blk.inq.mem == qFull.mem && t.obs.events.contains (.inboundDrop, .inq)) = true := by
  decide
/-- R165's example. -/
theorem test_fsmReadExit :
    ends (exec (.fsmReadExit true true false) sReading) (fun t => t.blk.fsm == IDLE && alike t.blk.inq qEmpty) = true := by decide
/-- R166: the head word leaves; the second stays. -/
theorem test_fsmWriteCont :
    ends (exec (.fsmWriteCont false false) sWriting)
      (fun t => t.blk.fsm == WRITING && t.blk.outq.rptrBin == 1 && t.obs.outq.word == some 0x0021 &&
        t.obs.po.any (fun v => v.writeStrobe && v.dataOut == 0x0021 && v.byteEnable == 3)) = true := by
  decide
/-- R167's example: nothing dequeued. -/
theorem test_fsmWriteExitT0 :
    ends (exec (.fsmWriteExitT0 false true false) sWriting)
      (fun t => t.blk.fsm == IDLE && alike t.blk.outq qTwo && t.obs.po.any (fun v => !v.writeStrobe && v.outputEnable)) = true := by
  decide
/-- R168's example. -/
theorem test_fsmWriteExitD0 :
    ends (exec (.fsmWriteExitD0 false false) (at2 .gated WRITING qEmpty qEmpty)) (fun t => t.blk.fsm == IDLE) = true := by
  decide
/-- R105. -/
theorem test_fsmReserved : exec (.fsmReserved false true false true) sIdle = .fault .reservedFsmState := rfl
/-- In the reserved state code every controller transition stops (R105). -/
theorem test_fsmIdleRead_reserved :
    exec (.fsmIdleRead true true true) (at2 .gated RESERVED qEmpty qTwo) = .fault .reservedFsmState := rfl
/-- Presented where its key does not select it, an operation is not performed (R9, R280). -/
theorem test_enq_unselected :
    ends (exec (.enq .inq 5) (at2 .gated READING qFull qTwo))
      (fun t => alike t.blk.inq qFull && alike t.blk.outq qTwo && t.blk.fsm == READING && !t.obs.inq.enqFire) = true := by
  decide
/-- R130's example: entry 3, pointer `100`, Gray `110`, full. -/
theorem test_enq :
    ends (exec (.enq .outq 0x00AB) (at2 .gated IDLE qEmpty { qEmpty with wptrBin := 3, wptrGray := 2 }))
      (fun t => Memory.read t.blk.outq.mem 3 == some 0x00AB && t.blk.outq.wptrBin == 4 && t.blk.outq.wptrGray == 6 &&
        t.blk.outq.wLevel == 4 && !t.blk.outq.spaceAvailable) = true := by
  decide
/-- Section 2.3 line 23: the pointer wraps from `111` to `000`. -/
theorem test_enq_wraps :
    ends (exec (.enq .inq 0x00A8)
        (at2 .gated IDLE { qEmpty with wptrBin := 7, wptrGray := 4, wRsync1 := 7, wRsync2 := 7 } qEmpty))
      (fun t => t.blk.inq.wptrBin == 0 && t.blk.inq.wptrGray == 0 && t.blk.inq.wLevel == 3) = true := by
  decide
/-- R131's example. -/
theorem test_enqRefused :
    ends (exec (.enqRefused .inq 0xFFFF) (at2 .gated IDLE qFull qEmpty))
      (fun t => alike t.blk.inq qFull && !t.obs.inq.enqFire) = true := by
  decide
/-- R132's example. -/
theorem test_prodIdle :
    ends (exec (.prodIdle .outq true) sIdle) (fun t => t.blk.outq.wptrBin == 2) = true := by decide
/-- R133's example: the first stage takes the Gray pointer, the second the old first. -/
theorem test_syncR2W :
    ends (exec (.syncR2W .inq false true) (at2 .gated IDLE { qEmpty with rptrBin := 1, rptrGray := 1 } qEmpty))
      (fun t => t.blk.inq.wRsync1 == 1 && t.blk.inq.wRsync2 == 0) = true := by
  decide
/-- R135's example: the head word, `rptr_bin = 001`, `r_level = 1`. -/
theorem test_deq :
    ends (exec (.deq .inq) (at2 .gated IDLE qTwo qEmpty))
      (fun t => t.obs.inq.word == some 0x0021 && t.blk.inq.rptrBin == 1 && t.blk.inq.rptrGray == 1 &&
        t.blk.inq.rLevel == 1 && t.blk.inq.mem == qTwo.mem) = true := by
  decide
/-- Section 2.3 line 6: four words stored, none visible. -/
theorem test_deqEmpty :
    ends (exec (.deqEmpty .outq) (at2 .gated IDLE qEmpty qFull))
      (fun t => alike t.blk.outq qFull && t.obs.outq.word == none && t.obs.events == [(.emptyDequeue, .outq)]) = true := by
  decide
/-- R137. -/
theorem test_consIdle : ends (exec (.consIdle .outq true) sIdle) (fun t => alike t.blk.outq qTwo) = true := by decide
/-- R138's example: `r_level` 0, then 1. -/
theorem test_syncW2R :
    ends (exec (.syncW2R .outq true false)
        (at2 .gated IDLE qEmpty { qEmpty with wptrBin := 2, wptrGray := 3, rWsync1 := 1 }))
      (fun t => t.blk.outq.rWsync1 == 3 && t.blk.outq.rWsync2 == 1 && t.blk.outq.rLevel == 1) = true := by
  decide
/-- R204's example: no space, false, nothing stored. -/
theorem test_submit_full :
    ends (exec (.submit false 0x0003) (at2 .gated IDLE qEmpty qFull))
      (fun t => t.obs.ho.any (fun v => !v.submitOk) && t.blk.outq.mem == qFull.mem && t.blk.outq.wptrBin == 4) = true := by
  decide
/-- R205's example. -/
theorem test_poll :
    ends (exec (.poll false 0) (at2 .gated IDLE qTwo qEmpty))
      (fun t => t.obs.ho.any (fun v => v.pollResult == some 0x0021 && v.inRLevel == 2) && t.blk.inq.rptrBin == 1) = true := by
  decide
/-- R206: an idle host tick shifts the synchronisers. -/
theorem test_advance_host :
    ends (exec (.advance .host) (at2 .gated IDLE qFull qEmpty))
      (fun t => t.blk.inq.rWsync1 == 6 && t.blk.inq.rWsync2 == 0 && t.blk.inq.rptrBin == 0) = true := by
  decide
/-- Section 2.2, key `001110`: priority of the read. -/
theorem test_advance_peripheral :
    ends (exec (.advance (.peripheral ⟨true, true, 0⟩)) sIdle) (fun t => t.blk.fsm == READING) = true := by decide
/-- R207's example with four words: the levels of an unseen queue. -/
theorem test_fillLevel :
    ends (exec (.fillLevel .outq) (at2 .gated IDLE qEmpty qFull))
      (fun t => t.obs.level.any (fun v => v.wLevel == 4 && v.rLevel == 0) && alike t.blk.outq qFull) = true := by
  decide
/-- Program P5G line 5: gated and full, the controller waits. -/
theorem test_tickP_waits :
    ends (exec (.tickP ⟨true, false, 0x0012⟩) (at2 .gated READING qFull qEmpty))
      (fun t => t.blk.fsm == READING && t.obs.po.any (fun v => !v.readStrobe) && t.dropped == [] &&
        t.blk.inq.wptrBin == 4) = true := by
  decide
/-- Program P4 line 8's kind: a strobe and a dequeue. -/
theorem test_tickP_writes :
    ends (exec (.tickP ⟨true, true, 0⟩) sWriting)
      (fun t => t.blk.fsm == WRITING && t.blk.outq.ghost.dequeued == [0x0021] && t.blk.inq.wptrBin == 0) = true := by
  decide
/-- Section 2.7: submit and poll at one tick. -/
theorem test_tickH :
    ends (exec (.tickH ⟨true, true, 0x0031⟩) (at2 .gated READING qTwo qEmpty))
      (fun t => t.obs.ho.any (fun v => v.submitOk && v.pollResult == some 0x0021) &&
        Memory.read t.blk.outq.mem 0 == some 0x0031 && t.blk.inq.rptrBin == 1 && t.blk.fsm == READING) = true := by
  decide
/-- Section 2.5, draws `1101`: the four first stages. -/
theorem test_tickPH_draws :
    ends (exec (.tickPH ⟨true, false, 0x0023⟩ ⟨true, true, 0x0031⟩ ⟨true, true, false, true⟩) (at2 .gated READING qTwo qEmpty))
      (fun t => t.blk.inq.wRsync1 == 1 && t.blk.outq.rWsync1 == 1 && t.blk.outq.wRsync1 == 0 && t.blk.inq.rWsync1 == 2) =
      true := by
  decide
/-- Section 2.5, draws `0010`: the same stages, and the pointers of the common update. -/
theorem test_tickPH_old :
    ends (exec (.tickPH ⟨true, false, 0x0023⟩ ⟨true, true, 0x0031⟩ ⟨false, false, true, false⟩) (at2 .gated READING qTwo qEmpty))
      (fun t => t.blk.inq.wRsync1 == 0 && t.blk.outq.rWsync1 == 0 && t.blk.inq.rWsync1 == 3 && t.blk.inq.wptrBin == 3 &&
        t.blk.inq.rptrBin == 1 && t.blk.outq.wptrBin == 1) = true := by
  decide
/-- Section 2.6. -/
theorem test_reset :
    ends (exec (.reset true true) (at2 .ungated WRITING qFull qTwo))
      (fun t => t.blk.fsm == IDLE && alike t.blk.inq qEmpty && alike t.blk.outq qEmpty) = true := by
  decide
/-- A step runs a decoded word and takes it off: `H submit 0x01FF` from reset (R203). -/
theorem test_step :
    ends (step { State.reset with pending := [0x000807FC00000B01, 0] })
      (fun t => t.pending == [0] && Memory.read t.blk.outq.mem 0 == some 0x01FF) = true := by
  decide

/-- No way to flush a queue other than reset and no way to write `fsm.state` (R237): the words of `DEQ` on `OUTQ` and of
`FSM_IDLE_READ` change nothing in the running block. -/
theorem test_step_no_flush :
    ends (step { sWriting with pending := [0x0100000000000403] })
      (fun t => alike t.blk.outq qTwo && t.blk.fsm == WRITING && t.pending == []) = true := by
  decide
theorem test_step_no_fsm_write :
    ends (step { sIdle with pending := [0x000000000000010D] }) (fun t => t.blk.fsm == IDLE) = true := by
  decide
/-- Run by itself, the row is performed (log entry 6). -/
theorem test_step_lone :
    ends (step { sIdle with pending := [0x000000000000010D], lone := true }) (fun t => t.blk.fsm == READING) = true := by
  decide

/-! ### Witnesses: for each statement with hypotheses, a state and operands that meet them -/

/-- The three queues above have the invariant. -/
theorem qEmpty_inv : QueueInv qEmpty :=
  ⟨⟨rfl, rfl, rfl, rfl, rfl, rfl, rfl, rfl⟩, ⟨by decide, by decide, by decide, by decide, by decide, by decide⟩,
    ⟨rfl, fun _ _ h => absurd h (Nat.not_lt_zero _), rfl, rfl, rfl⟩⟩
theorem qTwo_inv : QueueInv qTwo :=
  ⟨by constructor <;> decide, by constructor <;> decide,
    ⟨rfl, fun k _ h => (by decide : ∀ k < 2, Memory.read qTwo.mem (k % 2 ^ 2) = qTwo.ghost.enqueued[k]?) k h,
      rfl, rfl, by decide⟩⟩
theorem qFull_inv : QueueInv qFull :=
  ⟨by constructor <;> decide, by constructor <;> decide,
    ⟨rfl, fun k _ h => (by decide : ∀ k < 4, Memory.read qFull.mem (k % 2 ^ 2) = qFull.ghost.enqueued[k]?) k h,
      rfl, rfl, by decide⟩⟩

/-- States built from them have it too. -/
theorem sIdle_inv : Inv sIdle := ⟨qEmpty_inv, qTwo_inv, .inl rfl⟩
theorem sReading_inv : Inv sReading := ⟨qEmpty_inv, qTwo_inv, .inr (.inl rfl)⟩
theorem sWriting_inv : Inv sWriting := ⟨qEmpty_inv, qTwo_inv, .inr (.inr rfl)⟩

theorem witness_BinaryToGrayBitByBit : 0 + 1 < 3 ∧ 1 + 1 < 3 ∧ 2 + 1 = 3 ∧
    (bin2gray 0b101#3).getLsbD 0 = true ∧ (bin2gray 0b101#3).getLsbD 1 = true ∧ (bin2gray 0b101#3).getLsbD 2 = true := by
  decide
theorem witness_GrayToBinaryInverts : 0 + 1 < 3 ∧ 1 + 1 < 3 ∧ 2 + 1 = 3 ∧ gray2bin 0b111#3 = 0b101#3 := by decide
theorem witness_GrayNeighboursDifferInOneBit : 1 ≤ 3 ∧ bin2gray 7#3 ^^^ bin2gray (7#3 + 1) = BitVec.twoPow 3 2 := by decide
theorem witness_FsmRowsPartitionTheKeys : (0b10#2 ≠ 0b11#2) ∧ nextFsm (fsmKey 0b11#2 true true true true) = none := by
  decide
theorem witness_DecodeOfEncodeIsTheOperation : Instr.wellFormed (.poll false 0#16) = true := rfl
theorem witness_DecodedWordIsItsEncoding :
    (decode 0x0000000000020119 = .op (.fsmReadCont false false true 2#16) ∧
      (Fields.ofWord 0x0000000000020119).port ≠ portNone) ∧
    (decode 0x0000000000000008 = .op (.fsmIdleRead false false false) ∧
      (Fields.ofWord 0x0000000000000008).port = portNone) := by
  decide
theorem witness_StepRunsDecodedOperation :
    (∃ (s : State) (w : OpWord) (rest : List OpWord) (i : Instr), s.cfg.legal = true ∧ s.pending = w :: rest ∧
      decode w = .op i ∧ isBlockStep i = true) ∧
    (∃ (s : State) (w : OpWord) (rest : List OpWord), s.cfg.legal = true ∧ s.pending = w :: rest ∧
      decode w = .op (.deq .outq) ∧ s.lone = true) ∧
    ∃ (s : State) (w : OpWord) (rest : List OpWord), s.cfg.legal = true ∧ s.pending = w :: rest ∧
      decode w = .op (.deq .outq) ∧ s.lone = false ∧ isBlockStep (.deq .outq) = false :=
  ⟨⟨{ sIdle with pending := [0x0000000000000B01, 0] }, _, _, .tickH ⟨false, false, 0⟩, by decide, rfl, by decide, rfl⟩,
    ⟨{ sIdle with pending := [0x0100000000000403], lone := true }, _, _, by decide, rfl, by decide, rfl⟩,
    { sIdle with pending := [0x0100000000000403] }, _, _, by decide, rfl, by decide, rfl, rfl⟩
theorem witness_NoEdgeChangesNothing :
    (sIdle.cfg.legal = true ∧ sIdle.pending = []) ∧
    (∃ (s : State) (rest : List OpWord), s.cfg.legal = true ∧ s.pending = (0x0B00#64 : OpWord) :: rest) ∧
    ∃ (s : State) (w : OpWord) (e : DecodeError) (rest : List OpWord), s.cfg.legal = true ∧ s.pending = w :: rest ∧
      decode w = .bad e ∧ e ≠ .partialReset :=
  ⟨by decide, ⟨{ sIdle with pending := [0x0B00, 0] }, [0], by decide, rfl⟩,
    { sIdle with pending := [0x0D00] }, _, .unknownPort, [], by decide, rfl, by decide, by decide⟩
theorem witness_IllegalConfigurationAndPartialResetAreRefused :
    (State.resetWith ⟨0, .gated⟩).cfg.a = 0 ∧
    (∃ s : State, 1 ≤ s.cfg.a ∧ s.pending = (Fields.bare portPartialReset 1#8).toWord :: []) ∧
    (∃ s : State, step s = .refused .illegalConfig) ∧ ∃ s : State, step s = .refused .partialReset :=
  ⟨rfl, ⟨{ State.resetWith ⟨1, .gated⟩ with pending := [(Fields.bare portPartialReset 1#8).toWord] }, by decide, rfl⟩,
    ⟨State.resetWith ⟨0, .gated⟩, rfl⟩, { sIdle with pending := [0x0C00] }, rfl⟩
theorem witness_FetchedWordRunsSelected :
    sIdle.cfg.legal = true ∧ decodeTableWord 8 0b011000 = some (.fsmReadCont false false false 0#16) := by
  decide
theorem witness_OnlyTicksAndResetReachTheBlock :
    (∃ s t : State, step s = .next t ∧ s.lone = false ∧ t.blk.inq.rWsync1.toNat ≠ s.blk.inq.rWsync1.toNat) ∧
    ∃ s t : State, step s = .next t ∧ s.lone = true :=
  ⟨⟨{ at2 .gated IDLE qFull qTwo with pending := [0x0000000000000B01] },
    State.hostTick { at2 .gated IDLE qFull qTwo with pending := [] } ⟨false, false, 0⟩, rfl, rfl, by decide⟩,
    { sIdle with lone := true }, _, rfl, rfl⟩
theorem witness_LevelsAreExactAndPessimistic :
    (QueueInv qTwo ∧ qTwo.spaceAvailable = true ∧ qTwo.dataAvailable = true) ∧
    (QueueInv qFull ∧ qFull.spaceAvailable = false) ∧ (QueueInv qEmpty ∧ qEmpty.dataAvailable = false) :=
  ⟨⟨qTwo_inv, by decide, by decide⟩, ⟨qFull_inv, by decide⟩, qEmpty_inv, by decide⟩
theorem witness_FlagsCompareGrayCodes :
    1 ≤ 2 ∧ (QueueInv qEmpty ∧ qEmpty.empty = true ∧ qEmpty.full = false) ∧
    (QueueInv qFull ∧ qFull.full = true) ∧ (QueueInv qTwo ∧ qTwo.empty = false) :=
  ⟨by decide, ⟨qEmpty_inv, by decide, by decide⟩, ⟨qFull_inv, by decide⟩, qTwo_inv, by decide⟩
theorem witness_NoEntryReadAndWrittenAtOnce :
    QueueInv qTwo ∧ qTwo.dataAvailable = true ∧ qTwo.spaceAvailable = true :=
  ⟨qTwo_inv, by decide, by decide⟩
theorem witness_StrobesRespectBusOwnership :
    (controllerPO .gated READING true false false true 5).readStrobe = true ∧
    (controllerPO .gated WRITING false true true false 5).writeStrobe = true ∧
    (controllerPO .gated WRITING false false true false 5).outputEnable = true := by
  decide
theorem witness_IdleReadEntersReading : sIdle.blk.fsm = 0b00#2 := rfl
theorem witness_IdleWriteEntersWriting : sIdle.blk.fsm = 0b00#2 ∧ sIdle.blk.outq.dataAvailable = true := by decide
theorem witness_IdleHoldsKeepIdle : sIdle.blk.fsm = 0b00#2 ∧
    (at2 .gated IDLE qEmpty qEmpty).blk.fsm = 0b00#2 ∧
    (at2 .gated IDLE qEmpty qEmpty).blk.outq.dataAvailable = false := by
  decide
theorem witness_ReadContOffersTheWord : sReading.blk.fsm = 0b01#2 := rfl
theorem witness_ReadExitReturnsToIdle : sReading.blk.fsm = 0b01#2 := rfl
theorem witness_WriteContHandsOverTheHead : sWriting.blk.fsm = 0b10#2 ∧ sWriting.blk.outq.dataAvailable = true := by decide
theorem witness_WriteExitsReturnToIdle :
    (sWriting.blk.fsm = 0b10#2 ∧ sWriting.blk.outq.dataAvailable = true) ∧
    ((at2 .gated WRITING qEmpty qFull).blk.fsm = 0b10#2 ∧
      (at2 .gated WRITING qEmpty qFull).blk.outq.dataAvailable = false) := by
  decide
theorem witness_ReservedStateCodeFaults :
    (at2 .gated RESERVED qEmpty qTwo).blk.fsm = 0b11#2 ∧ isTransition (.fsmIdleWrite true) = true := ⟨rfl, rfl⟩
theorem witness_UnselectedOperationsChangeNothing :
    (selectedIn sReading (.fsmIdleRead true true true) = false ∧ FsmDefined sReading) ∧
    (selectedIn sIdle (.fsmIdleHoldD0 true) = false ∧ FsmDefined sIdle) ∧
    (selectedIn (at2 .gated RESERVED qFull qTwo) (.enq .inq 5) = false ∧ isTransition (.enq .inq 5) = false) ∧
    (selectedIn (at2 .gated IDLE qFull qTwo) (.enqRefused .outq 5) = false) ∧
    (selectedIn (at2 .gated IDLE qFull qTwo) (.deq .inq) = false) ∧
    selectedIn (at2 .gated IDLE qFull qTwo) (.deqEmpty .outq) = false ∧
    ∀ r t d sp, Instr.deqEmpty .outq ≠ .fsmReserved r t d sp :=
  ⟨⟨by decide, .inr (.inl rfl)⟩, ⟨by decide, .inl rfl⟩, ⟨by decide, rfl⟩, by decide, by decide, by decide, nofun⟩
theorem witness_EnqueueStoresAndAdvances : (sIdle.queue .outq).spaceAvailable = true ∧ (sIdle.queue .inq).spaceAvailable = true := by
  decide
theorem witness_RefusedAndIdleProducersChangeNothing : ((at2 .gated IDLE qFull qTwo).queue .inq).spaceAvailable = false := by
  decide
theorem witness_DequeueReturnsHeadAndAdvances : (sIdle.queue .outq).dataAvailable = true := by decide
theorem witness_EmptyAndIdleConsumersChangeNothing : (sIdle.queue .inq).dataAvailable = false := by decide
theorem witness_ProducerTickRegisters :
    (true = true ∧ qTwo.wptrBin - gray2bin qTwo.wRsync2 ≠ BitVec.ofNat (2 + 1) (2 ^ 2)) ∧
    ¬ (true = true ∧ qFull.wptrBin - gray2bin qFull.wRsync2 ≠ BitVec.ofNat (2 + 1) (2 ^ 2)) := by
  decide
theorem witness_ConsumerTickRegisters :
    (true = true ∧ gray2bin qTwo.rWsync2 - qTwo.rptrBin ≠ 0) ∧
    ¬ (true = true ∧ gray2bin qFull.rWsync2 - qFull.rptrBin ≠ 0) := by
  decide
theorem witness_FailedRequestsLeaveNoTrace : qFull.spaceAvailable = false ∧ qFull.dataAvailable = false := by decide
theorem witness_AdvanceIsATick : FsmDefined sIdle := .inl rfl
theorem witness_PeripheralTickUpdates : FsmDefined sIdle ∧ FsmDefined sReading ∧ FsmDefined sWriting :=
  ⟨.inl rfl, .inr (.inl rfl), .inr (.inr rfl)⟩
theorem witness_TickPerformsTheSelectedTransition : FsmDefined sIdle ∧ FsmDefined sReading ∧ FsmDefined sWriting :=
  ⟨.inl rfl, .inr (.inl rfl), .inr (.inr rfl)⟩
theorem witness_TicksKeepTheOtherDomain :
    (∃ t, exec (.tickP ⟨true, false, 5⟩) sReading = .next t) ∧ ∃ t, exec (.tickH ⟨true, true, 5⟩) sReading = .next t :=
  ⟨⟨_, rfl⟩, _, rfl⟩
theorem witness_CoincidentTickDrawsItsSamples : FsmDefined sReading := .inr (.inl rfl)
theorem witness_OutputsAfterReset : (State.resetWith ⟨2, .ungated⟩).blk = Block.reset (State.resetWith ⟨2, .ungated⟩).cfg.a := rfl
theorem witness_StrobesMoveWords :
    FsmDefined sReading ∧ sReading.cfg.gating = .gated ∧ (sReading.po true false).readStrobe = true ∧
    FsmDefined sWriting ∧ (sWriting.po false true).writeStrobe = true :=
  ⟨.inr (.inl rfl), rfl, by decide, .inr (.inr rfl), by decide⟩
theorem witness_GatedNeverDrops :
    sReading.cfg.gating = .gated ∧ (∃ t, exec (.tickP ⟨true, false, 5⟩) sReading = .next t) ∧
    ∀ p h, Instr.tickP ⟨true, false, 5⟩ ≠ .reset p h :=
  ⟨rfl, ⟨_, rfl⟩, nofun⟩
theorem witness_BusTurnsThroughIdle :
    (sReading.blk.fsm = READING ∧ ∃ t, exec (.tickP ⟨false, true, 5⟩) sReading = .next t) ∧
    (sWriting.blk.fsm = WRITING ∧ ∃ t, exec (.tickP ⟨true, false, 5⟩) sWriting = .next t) :=
  ⟨⟨rfl, _, rfl⟩, rfl, _, rfl⟩
theorem witness_GrayPointersMoveOneBit :
    Inv sReading ∧ (∃ t, exec (.tickP ⟨true, false, 5⟩) sReading = .next t) ∧
    ∀ p h, Instr.tickP ⟨true, false, 5⟩ ≠ .reset p h :=
  ⟨sReading_inv, ⟨_, rfl⟩, nofun⟩
theorem witness_IdleIsIdempotent : sIdle.blk.fsm = IDLE ∧ 0 < 1 := ⟨rfl, by decide⟩
theorem witness_QuiescentTicksChangeNothing :
    Quiescent (at2 .gated IDLE qEmpty qEmpty) ∧ (⟨false, true, 5⟩ : PI).rxf = false ∧
    (⟨false, true, 5⟩ : HI).submitValid = false :=
  ⟨⟨rfl, ⟨rfl, rfl, rfl, rfl, rfl, rfl, rfl⟩, ⟨rfl, rfl, rfl, rfl, rfl, rfl, rfl⟩⟩, rfl, rfl⟩
theorem witness_DequeueReturnsOldestWord : Inv sIdle ∧ (sIdle.queue .outq).dataAvailable = true :=
  ⟨sIdle_inv, by decide⟩
theorem witness_QuietQueueConverges :
    QueueInv qFull ∧ 2 ≤ producerEdges [.producer, .consumer, .both true false] ∧
    2 ≤ consumerEdges [.producer, .consumer, .both true false] :=
  ⟨qFull_inv, by decide, by decide⟩
theorem witness_EnqueueShowsAtSecondConsumerTick : QueueInv qEmpty ∧ QueueQuiet qEmpty :=
  ⟨qEmpty_inv, ⟨rfl, rfl, rfl, rfl, rfl, rfl, rfl⟩⟩
theorem witness_StepKeepsTheInvariant : ∃ s t : State, Inv s ∧ step s = .next t :=
  ⟨{ sReading with pending := [0x0000000200120B02] }, _, ⟨qEmpty_inv, qTwo_inv, .inr (.inl rfl)⟩, rfl⟩
theorem witness_ReachableStatesAreLossless : ∃ t, Reachable t ∧ t.blk.outq.ghost.enqueued = [0x01FF] :=
  ⟨_, .step (.reset ⟨2, .gated⟩ [0x000807FC00000B01]) rfl, by decide⟩
theorem witness_OnlyTheReservedRowFaults : ∃ (s : State) (r : Fault), Inv s ∧ step s = .fault r :=
  ⟨{ sIdle with pending := [0x0000000000000130], lone := true }, .reservedFsmState, ⟨qEmpty_inv, qTwo_inv, .inl rfl⟩, rfl⟩
theorem witness_CoincidentEdgesIncludeBothOrders : Inv sReading ∧ Inv sWriting := ⟨sReading_inv, sWriting_inv⟩
theorem witness_GhostsNeverReachHardware :
    ∃ s t : State, SameHardware s t ∧ s.dropped ≠ t.dropped ∧ s.blk.outq.ghost ≠ t.blk.outq.ghost :=
  ⟨sWriting, at2 .gated WRITING qEmpty { qTwo with ghost := Ghost.reset } |>.drop [5],
    ⟨Ghost.reset, Ghost.reset, [5], rfl⟩, by decide, by decide⟩

end Sys2Proof.Tests
end

section
/-! PROOFS of family 00_scope.md (R6, R203, R237, R280, R313): what every operation does with the fields that are the
environment's and the construction's, when a step is refused, and what reaches a running block. -/

namespace Sys2Proof

/-! ### Legal configurations and the word of a partial reset -/

theorem Cfg.legal_iff (c : Cfg) : c.legal = true ↔ 1 ≤ c.a := decide_eq_true_iff

theorem Cfg.not_legal_iff (c : Cfg) : ¬ c.legal = true ↔ c.a = 0 := by
  rw [Cfg.legal_iff, Nat.not_le, Nat.lt_one_iff]

/-- The word of a partial reset decodes to nothing else, whatever its key field (R313; log entry 15). -/
theorem decode_partialReset (k : BitVec 8) : decode (Fields.bare portPartialReset k).toWord = .bad .partialReset := by
  rw [decode, Fields.ofWord_toWord]
  rfl

end Sys2Proof

namespace Sys2Proof.Machine

/-! ### What no operation touches -/

/-- Two states of one machine under one environment: the construction parameters (R6), the model's own `lone`, and what is
still to be presented. -/
structure State.SameEnvironment (s t : State) : Prop where
  cfg     : t.cfg = s.cfg
  lone    : t.lone = s.lone
  pending : t.pending = s.pending

/-- What every operation owes: it may stop with a fault, it never refuses (R280), and a state it answers has the
environment of the state it ran at. -/
def AnswersWithin (s : State) : Result → Prop
  | .next t    => s.SameEnvironment t
  | .fault _   => True
  | .refused _ => False

/-- A committed state has the environment it was committed in. -/
theorem State.commit_sameEnvironment (s : State) (b : Block s.cfg.a) (o : Obs s.cfg.a) :
    s.SameEnvironment (s.commit b o) :=
  ⟨rfl, rfl, rfl⟩

/-- Recording lost words leaves the environment alone. -/
theorem State.SameEnvironment.drop {s t : State} (h : s.SameEnvironment t) (ws : List Word) :
    s.SameEnvironment (t.drop ws) :=
  ⟨h.cfg, h.lone, h.pending⟩

theorem State.perform_answersWithin {s t : State} (b : Bool) (h : s.SameEnvironment t) :
    AnswersWithin s (s.perform b t) := by
  cases b with
  | false => exact s.commit_sameEnvironment _ _
  | true => exact h

theorem State.performRow_answersWithin {s t : State} (mask value key : BitVec 6) (h : s.SameEnvironment t) :
    AnswersWithin s (s.performRow mask value key t) := by
  unfold State.performRow
  split
  · trivial
  · exact s.perform_answersWithin _ h

theorem State.peripheralTick_answersWithin (s : State) (v : PI) : AnswersWithin s (s.peripheralTick v) := by
  unfold State.peripheralTick
  split
  · trivial
  · exact (s.commit_sameEnvironment _ _).drop _

theorem State.coincidentTick_answersWithin (s : State) (v : PI) (x : HI) (d : Draws) :
    AnswersWithin s (s.coincidentTick v x d) := by
  unfold State.coincidentTick
  split
  · trivial
  · exact (s.commit_sameEnvironment _ _).drop _

/-- No operation refuses, and none touches the construction parameters, `lone` or the pending words. -/
theorem exec_answersWithin (i : Instr) (s : State) : AnswersWithin s (exec i s) := by
  cases i with
  | fsmIdleRead | fsmIdleWrite | fsmIdleHoldT0 | fsmIdleHoldD0 | fsmReadExit | fsmWriteCont | fsmWriteExitT0
  | fsmWriteExitD0 => exact s.performRow_answersWithin _ _ _ (s.commit_sameEnvironment _ _)
  | fsmReadCont => exact s.performRow_answersWithin _ _ _ ((s.commit_sameEnvironment _ _).drop _)
  | fsmReserved => trivial
  | enq | enqRefused | deq | deqEmpty => exact s.perform_answersWithin _ (s.commit_sameEnvironment _ _)
  | prodIdle | syncR2W | consIdle | syncW2R | submit | poll | fillLevel | tickH =>
    exact s.commit_sameEnvironment _ _
  | advance caller =>
    cases caller with
    | host => exact s.commit_sameEnvironment _ _
    | peripheral v => exact s.peripheralTick_answersWithin v
  | tickP v => exact s.peripheralTick_answersWithin v
  | tickPH v x d => exact s.coincidentTick_answersWithin v x d
  | reset => exact ⟨rfl, rfl, rfl⟩

/-- The frame of every operation: the environment. -/
theorem exec_next_sameEnvironment {i : Instr} {s t : State} (h : exec i s = .next t) : s.SameEnvironment t := by
  have := exec_answersWithin i s
  rwa [h] at this

/-- No operation is refused (R280): what is refused is refused by `step`. -/
theorem exec_ne_refused (i : Instr) (s : State) (r : Refusal) : exec i s ≠ .refused r := by
  intro h
  have := exec_answersWithin i s
  rwa [h] at this

/-! ### When a step is refused -/

/-- An illegal configuration is refused whatever is pending (R6). -/
theorem step_of_not_legal {s : State} (h : ¬ s.cfg.legal = true) : step s = .refused .illegalConfig := if_neg h

/-- A reset of one domain alone is refused (R313). -/
theorem step_of_partialReset {s : State} {w : OpWord} {rest : List OpWord} (hl : s.cfg.legal = true)
    (hp : s.pending = w :: rest) (hd : decode w = .bad .partialReset) : step s = .refused .partialReset := by
  simp only [step, hl, if_true, hp, hd]

/-- Every refusal of a step: the configuration is illegal, or the first pending word is a partial reset. -/
theorem step_refused {s : State} {r : Refusal} (h : step s = .refused r) :
    (r = .illegalConfig ∧ ¬ s.cfg.legal = true) ∨
      (r = .partialReset ∧ ∃ w rest, s.pending = w :: rest ∧ decode w = .bad .partialReset) := by
  unfold step at h
  split at h
  case isFalse hl => cases h; exact .inl ⟨rfl, hl⟩
  case isTrue =>
    split at h
    · cases h
    · next w rest hp =>
      split at h
      · split at h
        · exact absurd h (exec_ne_refused _ _ _)
        · cases h
      · cases h
      · next hd => cases h; exact .inr ⟨rfl, w, rest, hp, hd⟩
      all_goals cases h

/-! ### What the outside world can present -/

/-- The step kinds of R104 with an edge or a reset: a tick or RESET. -/
def IsTickOrReset (i : Instr) : Prop :=
  (∃ v, i = .tickP v) ∨ (∃ x, i = .tickH x) ∨ (∃ v x d, i = .tickPH v x d) ∨ (∃ p h, i = .reset p h)

theorem isTickOrReset_tickP (v : PI) : IsTickOrReset (.tickP v) := .inl ⟨v, rfl⟩
theorem isTickOrReset_tickH (x : HI) : IsTickOrReset (.tickH x) := .inr (.inl ⟨x, rfl⟩)
theorem isTickOrReset_tickPH (v : PI) (x : HI) (d : Draws) : IsTickOrReset (.tickPH v x d) :=
  .inr (.inr (.inl ⟨v, x, d, rfl⟩))
theorem isTickOrReset_reset (p e : Bool) : IsTickOrReset (.reset p e) := .inr (.inr (.inr ⟨p, e, rfl⟩))

/-- A host call is a tick (R204 to R206): what can be presented to the running block is the reading of the levels, or runs
as a tick or a reset. -/
theorem exec_of_isBlockStep {i : Instr} (h : isBlockStep i = true) :
    (∃ q, i = .fillLevel q) ∨ ∃ j, IsTickOrReset j ∧ ∀ s, exec i s = exec j s := by
  cases i with
  | tickP v => exact .inr ⟨_, isTickOrReset_tickP v, fun _ => rfl⟩
  | tickH x => exact .inr ⟨_, isTickOrReset_tickH x, fun _ => rfl⟩
  | tickPH v x d => exact .inr ⟨_, isTickOrReset_tickPH v x d, fun _ => rfl⟩
  | reset p e => exact .inr ⟨_, isTickOrReset_reset p e, fun _ => rfl⟩
  | submit p w => exact .inr ⟨_, isTickOrReset_tickH ⟨true, p, w⟩, fun _ => rfl⟩
  | poll v w => exact .inr ⟨_, isTickOrReset_tickH ⟨v, true, w⟩, fun _ => rfl⟩
  | advance caller =>
    cases caller with
    | host => exact .inr ⟨_, isTickOrReset_tickH ⟨false, false, 0#16⟩, fun _ => rfl⟩
    | peripheral v => exact .inr ⟨_, isTickOrReset_tickP v, fun _ => rfl⟩
  | fillLevel q => exact .inl ⟨q, rfl⟩
  | _ => cases h

/-- The reading of the levels changes the observation and the count of looks alone (R207). -/
theorem exec_fillLevel (q : QueueId) (s : State) :
    exec (.fillLevel q) s = .next { s with obs := s.levelObs q, looks := s.looks + 2 } := rfl

/-- No step changes the construction parameters or `lone`. -/
theorem step_next_cfg_lone {s t : State} (h : step s = .next t) : t.cfg = s.cfg ∧ t.lone = s.lone := by
  obtain ⟨-, ⟨-, rfl⟩ | ⟨w, rest, -, ⟨-, -, rfl⟩ | ⟨i, -, -, hexec⟩⟩⟩ := step_next h
  · exact ⟨rfl, rfl⟩
  · exact ⟨rfl, rfl⟩
  · have henv := exec_next_sameEnvironment hexec
    exact ⟨henv.cfg, henv.lone⟩

/-- Where no row is run by itself, a step changes no register, or it is a tick or RESET (R203, R237). -/
theorem step_next_block {s t : State} (h : step s = .next t) (hlone : s.lone = false) :
    (∃ (o : Obs s.cfg.a) (n : Nat) (ws : List OpWord), t = { s with obs := o, looks := n, pending := ws }) ∨
      ∃ (ws : List OpWord) (i : Instr), IsTickOrReset i ∧ exec i { s with pending := ws } = .next t := by
  obtain ⟨-, ⟨-, rfl⟩ | ⟨w, rest, -, ⟨-, -, rfl⟩ | ⟨i, -, hrun, hexec⟩⟩⟩ := step_next h
  · exact .inl ⟨t.obs, t.looks, t.pending, rfl⟩
  · exact .inl ⟨s.obs, s.looks, rest, rfl⟩
  · have hblock : isBlockStep i = true := by simpa [hlone] using hrun
    obtain ⟨q, rfl⟩ | ⟨j, hj, heq⟩ := exec_of_isBlockStep hblock
    · rw [exec_fillLevel] at hexec
      cases hexec
      exact .inl ⟨_, _, rest, rfl⟩
    · exact .inr ⟨rest, j, hj, by rw [← heq, hexec]⟩

/-- Settles O10: the two refusals are `step`'s own branches, and no operation refuses. -/
theorem illegalConfigurationAndPartialResetAreRefused : Obligations.IllegalConfigurationAndPartialResetAreRefused := by
  refine ⟨fun s ha => ?_, fun s k rest ha hp => ?_, fun s r h => ?_⟩
  · exact step_of_not_legal (s.cfg.not_legal_iff.2 ha)
  · exact step_of_partialReset (s.cfg.legal_iff.2 ha) hp (decode_partialReset k)
  · exact (step_refused h).imp_left (And.imp_right s.cfg.not_legal_iff.1)

/-- Settles O12: what `step` runs keeps the environment, and what it runs with `lone` false is a tick, RESET or the reading
of the levels. -/
theorem onlyTicksAndResetReachTheBlock : Obligations.OnlyTicksAndResetReachTheBlock := by
  intro s t h
  obtain ⟨hcfg, hlone⟩ := step_next_cfg_lone h
  exact ⟨hcfg, hlone, step_next_block h⟩

end Sys2Proof.Machine
end

section
/-! PROOFS of family 10_state.md (R21, R40, R43): what RESET leaves, and that the ghosts never reach the hardware. The
second goes through erasure: an operation run on the state whose ghosts are erased leaves, ghosts erased again, what it
leaves when run on the state itself. -/

namespace Sys2Proof.Machine

open Sys2Proof.Safety

/-! ### Erasing the ghosts -/

/-- The block's registers and storage alone (R20). -/
def Block.withoutGhosts {a : Nat} (b : Block a) : Block a := { b with inq := hardware b.inq, outq := hardware b.outq }

/-- The state with every ghost of R40 erased. -/
def State.withoutGhosts (s : State) : State := { s with blk := s.blk.withoutGhosts, dropped := [] }

/-- An outcome with the ghosts of its state erased. -/
def eraseGhosts : Result → Result
  | .next s    => .next s.withoutGhosts
  | .fault r   => .fault r
  | .refused r => .refused r

/-- States differ in ghosts only exactly when they agree once the ghosts are erased. -/
theorem sameHardware_iff {s t : State} : SameHardware s t ↔ s.withoutGhosts = t.withoutGhosts := by
  constructor
  · rintro ⟨inq, outq, dropped, rfl⟩
    rfl
  · intro h
    obtain ⟨cfg, ⟨⟨⟩, ⟨⟩, fsm⟩, dropped, obs, pending, lone, looks, era⟩ := s
    obtain ⟨cfg', ⟨⟨⟩, ⟨⟩, fsm'⟩, dropped', obs', pending', lone', looks', era'⟩ := t
    cases h
    exact ⟨_, _, _, rfl⟩

/-- Outcomes differ in ghosts only when they agree once the ghosts are erased. -/
theorem sameOutcome_of_eraseGhosts_eq {x y : Result} (h : eraseGhosts x = eraseGhosts y) : SameOutcome x y := by
  cases x with
  | next s =>
    cases y with
    | next t => exact sameHardware_iff.2 (Host.Outcome.next.inj h)
    | fault | refused => cases h
  | fault r => cases y <;> cases h; rfl
  | refused r => cases y <;> cases h; rfl

/-! ### A queue's ports -/

section Queue

variable {a : Nat} (q : Queue a) (en : Bool) (w : Word) (p : BitVec (a + 1)) (n : Nat)

/-- A count of 0 is the reset ghost's own, so the shift of an erased queue is erased. -/
theorem hardware_shiftR2W : hardware (q.shiftR2W p n) = (hardware q).shiftR2W p 0 := rfl
theorem hardware_shiftW2R : hardware (q.shiftW2R p n) = (hardware q).shiftW2R p 0 := rfl

theorem hardware_producerOp : hardware ((hardware q).producerOp en w) = hardware (q.producerOp en w) := by
  have hfire : (hardware q).enqFire en = q.enqFire en := rfl
  unfold Queue.producerOp
  rw [hfire]
  split <;> rfl

theorem hardware_consumerOp : hardware ((hardware q).consumerOp en w) = hardware (q.consumerOp en w) := by
  have hfire : (hardware q).deqFire en = q.deqFire en := rfl
  unfold Queue.consumerOp
  rw [hfire]
  split <;> rfl

theorem hardware_producerTick : hardware ((hardware q).producerTick en w) = hardware (q.producerTick en w) := by
  simp only [Queue.producerTick, hardware_shiftR2W, hardware_producerOp]
  rfl

theorem hardware_consumerTick : hardware ((hardware q).consumerTick en w) = hardware (q.consumerTick en w) := by
  simp only [Queue.consumerTick, hardware_shiftW2R, hardware_consumerOp]
  rfl

/-- What the two ports of a coincident edge leave, before the synchronisers shift. -/
theorem hardware_consumerOp_producerOp (r : Bool) (out : Word) :
    hardware (((hardware q).producerOp en w).consumerOp r out) = hardware ((q.producerOp en w).consumerOp r out) := by
  rw [← hardware_consumerOp, hardware_producerOp, hardware_consumerOp]

/-- The samples of a coincident edge are drawn from pointers, before and after the ports' operations, never from a ghost. -/
theorem hardware_bothTick (r : Bool) (out : Word) (dW dR : Bool) :
    hardware ((hardware q).bothTick en w r out dW dR) = hardware (q.bothTick en w r out dW dR) := by
  have hports := hardware_consumerOp_producerOp q en w r out
  have hrptr := congrArg Queue.rptrGray hports
  have hwptr := congrArg Queue.wptrGray hports
  simp only [hardware] at hrptr hwptr
  simp only [Queue.bothTick, hardware_shiftR2W, hardware_shiftW2R, hports]
  simp only [hardware, hrptr, hwptr]

end Queue

/-! ### The block and the state -/

theorem Block.withoutGhosts_congr {a : Nat} {b c : Block a} (hinq : hardware b.inq = hardware c.inq)
    (houtq : hardware b.outq = hardware c.outq) (hfsm : b.fsm = c.fsm) : b.withoutGhosts = c.withoutGhosts := by
  simp only [Block.withoutGhosts, hinq, houtq, hfsm]

/-- A committed state, ghosts erased, is fixed by the block's hardware and the observation. -/
theorem State.withoutGhosts_commit (s : State) {b c : Block s.cfg.a} (o : Obs s.cfg.a)
    (h : b.withoutGhosts = c.withoutGhosts) :
    (State.commit s.withoutGhosts b o).withoutGhosts = (s.commit c o).withoutGhosts :=
  congrArg (fun d : Block s.cfg.a => { s with blk := d, dropped := [], obs := o, looks := s.looks + 2 }) h

/-! ### An operation -/

theorem State.eraseGhosts_perform (s : State) (b : Bool) {t t' : State} (h : t.withoutGhosts = t'.withoutGhosts) :
    eraseGhosts (s.withoutGhosts.perform b t) = eraseGhosts (s.perform b t') := by
  cases b with
  | false => rfl
  | true => exact congrArg Host.Outcome.next h

theorem State.eraseGhosts_performRow (s : State) (mask value key : BitVec 6) {t t' : State}
    (h : t.withoutGhosts = t'.withoutGhosts) :
    eraseGhosts (s.withoutGhosts.performRow mask value key t) = eraseGhosts (s.performRow mask value key t') := by
  unfold State.performRow
  split
  · rfl
  · exact s.eraseGhosts_perform _ h

theorem State.withoutGhosts_readWord (s : State) (t : Bool) (w : Word) :
    (s.withoutGhosts.readWord t w).withoutGhosts = (s.readWord t w).withoutGhosts :=
  s.withoutGhosts_commit _ (Block.withoutGhosts_congr (hardware_producerTick ..) rfl rfl)

theorem State.withoutGhosts_writeWord (s : State) (r : Bool) :
    (s.withoutGhosts.writeWord r).withoutGhosts = (s.writeWord r).withoutGhosts :=
  s.withoutGhosts_commit _ (Block.withoutGhosts_congr rfl (hardware_consumerTick ..) rfl)

theorem State.eraseGhosts_hostTick (s : State) (v : HI) :
    eraseGhosts (.next (s.withoutGhosts.hostTick v)) = eraseGhosts (.next (s.hostTick v)) :=
  congrArg Host.Outcome.next (s.withoutGhosts_commit _
    (Block.withoutGhosts_congr (hardware_consumerTick ..) (hardware_producerTick ..) rfl))

theorem State.eraseGhosts_peripheralTick (s : State) (v : PI) :
    eraseGhosts (s.withoutGhosts.peripheralTick v) = eraseGhosts (s.peripheralTick v) := by
  have hkey : s.withoutGhosts.key v.rxf v.txe = s.key v.rxf v.txe := rfl
  unfold State.peripheralTick
  rw [hkey]
  split
  · rfl
  · exact congrArg Host.Outcome.next (s.withoutGhosts_commit _
      (Block.withoutGhosts_congr (hardware_producerTick ..) (hardware_consumerTick ..) rfl))

theorem State.eraseGhosts_coincidentTick (s : State) (v : PI) (x : HI) (d : Draws) :
    eraseGhosts (s.withoutGhosts.coincidentTick v x d) = eraseGhosts (s.coincidentTick v x d) := by
  have hkey : s.withoutGhosts.key v.rxf v.txe = s.key v.rxf v.txe := rfl
  unfold State.coincidentTick
  rw [hkey]
  split
  · rfl
  · exact congrArg Host.Outcome.next (s.withoutGhosts_commit _
      (Block.withoutGhosts_congr (hardware_bothTick ..) (hardware_bothTick ..) rfl))

/-- No operation looks at a ghost: run on the state without them, it leaves the same hardware and answers the same. -/
theorem eraseGhosts_exec (i : Instr) (s : State) : eraseGhosts (exec i s.withoutGhosts) = eraseGhosts (exec i s) := by
  cases i with
  | fsmIdleRead | fsmIdleWrite | fsmIdleHoldT0 | fsmIdleHoldD0 | fsmReadExit | fsmWriteExitT0 | fsmWriteExitD0 =>
    exact s.eraseGhosts_performRow _ _ _ rfl
  | fsmReadCont t _ _ w => exact s.eraseGhosts_performRow _ _ _ (s.withoutGhosts_readWord t w)
  | fsmWriteCont r => exact s.eraseGhosts_performRow _ _ _ (s.withoutGhosts_writeWord r)
  | enq q | enqRefused q | deq q | deqEmpty q =>
    cases q with
    | inq | outq => exact s.eraseGhosts_perform _ rfl
  | prodIdle q | consIdle q | syncR2W q | syncW2R q | fillLevel q =>
    cases q with
    | inq | outq => rfl
  | submit | poll | tickH => exact s.eraseGhosts_hostTick _
  | advance caller =>
    cases caller with
    | host => exact s.eraseGhosts_hostTick _
    | peripheral v => exact s.eraseGhosts_peripheralTick v
  | tickP v => exact s.eraseGhosts_peripheralTick v
  | tickPH v x d => exact s.eraseGhosts_coincidentTick v x d
  | fsmReserved | reset => rfl

/-! ### A step -/

/-- A step looks at no ghost: it decodes what is pending and performs it. -/
theorem eraseGhosts_step (s : State) : eraseGhosts (step s.withoutGhosts) = eraseGhosts (step s) := by
  have hcfg : s.withoutGhosts.cfg = s.cfg := rfl
  have hpending : s.withoutGhosts.pending = s.pending := rfl
  have hlone : s.withoutGhosts.lone = s.lone := rfl
  simp only [step, hcfg, hpending, hlone]
  split
  · split
    · rfl
    · next rest _ =>
      split
      · split
        · exact eraseGhosts_exec _ { s with pending := rest }
        · rfl
      all_goals rfl
  · rfl

/-- Settles O60: both steps leave, ghosts erased, what the step of the one state without ghosts leaves. -/
theorem ghostsNeverReachHardware : Obligations.GhostsNeverReachHardware := by
  intro s t h
  refine sameOutcome_of_eraseGhosts_eq ?_
  calc eraseGhosts (step s) = eraseGhosts (step s.withoutGhosts) := (eraseGhosts_step s).symm
    _ = eraseGhosts (step t.withoutGhosts) := by rw [sameHardware_iff.1 h]
    _ = eraseGhosts (step t) := eraseGhosts_step t

/-! ### RESET -/

/-- RESET's answer, whatever edges it coincides with (R310). -/
theorem exec_reset (p h : Bool) (s : State) : exec (.reset p h) s = .next s.resetBlock := rfl

/-- Settles O44: RESET answers the reset block whatever the state and the coincident edges are. -/
theorem resetClearsEveryRegister : Obligations.ResetClearsEveryRegister := by
  refine ⟨fun _ => rfl, fun p h s => ⟨[], [], Obs.blank s.cfg.a, s.looks + 2, s.era + 1, ?_, ?_⟩⟩
  · exact exec_reset p h s
  · rw [exec_reset, exec_reset]

end Sys2Proof.Machine
end

section
/-! PROOFS of family 20_memory.md (R72, R326): what every operation but RESET does to a queue, and why a Gray pointer moves
in at most one bit. An increment inverts a block of low bits, and the Gray code of such a block is its top bit alone. -/

namespace Sys2Proof.Machine

open Sys2Proof.Safety

/-! ### The Gray code of neighbours (R92) -/

section GrayCode

variable {n : Nat}

/-- A bit of the Gray code; above the top bit both operands are 0. -/
theorem getLsbD_bin2gray (b : BitVec n) (i : Nat) : (bin2gray b).getLsbD i = (b.getLsbD i ^^ b.getLsbD (i + 1)) := by
  simp [bin2gray, Nat.add_comm]

/-- The Gray code is linear over exclusive or. -/
theorem bin2gray_xor (b c : BitVec n) : bin2gray (b ^^^ c) = bin2gray b ^^^ bin2gray c := by
  refine BitVec.eq_of_getLsbD_eq fun i _ => ?_
  simp only [getLsbD_bin2gray, BitVec.getLsbD_xor]
  simp only [Bool.xor_assoc, Bool.xor_left_comm]

/-- The Gray code of a block of low bits is its top bit. -/
theorem bin2gray_of_lowBits {x : BitVec n} {k : Nat} (hk : k < n) (hx : ∀ i, x.getLsbD i = true ↔ i ≤ k) :
    bin2gray x = BitVec.twoPow n k := by
  have hbit (i : Nat) : x.getLsbD i = decide (i ≤ k) := by rw [Bool.eq_iff_iff, hx, decide_eq_true_iff]
  refine BitVec.eq_of_getLsbD_eq fun i _ => ?_
  rw [getLsbD_bin2gray, hbit, hbit, BitVec.getLsbD_twoPow]
  obtain hlt | rfl | hgt := Nat.lt_trichotomy i k
  · simp [Nat.le_of_lt hlt, Nat.succ_le_of_lt hlt, Nat.ne_of_gt hlt]
  · simp [hk]
  · simp [Nat.not_le_of_lt hgt, Nat.not_le_of_lt (Nat.lt_succ_of_lt hgt), Nat.ne_of_lt hgt]

/-- An increment inverts a bit exactly when every bit below it is set: the carry's condition. -/
theorem getLsbD_xor_succ (b : BitVec n) (i : Nat) :
    (b ^^^ (b + 1)).getLsbD i = true ↔ i < n ∧ ∀ j < i, b.getLsbD j = true := by
  by_cases hi : i < n
  · rw [BitVec.getLsbD_xor, BitVec.getLsbD_add hi]
    cases i with
    | zero => simp [hi]
    | succ i =>
      have hcarry := BitVec.carry_succ_one i b (by omega)
      simp [hi, hcarry]
  · simp [hi, BitVec.getLsbD_of_ge _ i (Nat.le_of_not_lt hi)]

/-- Of `n ≥ 1` bits, an increment inverts those up to the lowest clear one, or all where none below the top is clear. -/
theorem exists_xor_succ_lowBits (b : BitVec n) (hn : 1 ≤ n) :
    ∃ k < n, ∀ i, (b ^^^ (b + 1)).getLsbD i = true ↔ i ≤ k := by
  have hex : ∃ k, k + 1 = n ∨ b.getLsbD k = false := ⟨n - 1, .inl (by omega)⟩
  have hlow (i : Nat) (hi : i < Nat.find hex) : i + 1 ≠ n ∧ b.getLsbD i = true := by
    simpa using Nat.find_min hex hi
  have hlt : Nat.find hex < n := by
    have := Nat.find_le (h := hex) (n := n - 1) (.inl (by omega))
    omega
  refine ⟨Nat.find hex, hlt, fun i => ?_⟩
  rw [getLsbD_xor_succ]
  constructor
  · rintro ⟨hi, hset⟩
    by_contra hgt
    obtain htop | hclear := Nat.find_spec hex
    · omega
    · simp [hset _ (Nat.lt_of_not_le hgt)] at hclear
  · exact fun hi => ⟨by omega, fun j hj => (hlow j (by omega)).2⟩

/-- Neighbours differ in one bit of the Gray code, the wrap included. -/
theorem exists_bin2gray_xor_bin2gray_succ (b : BitVec n) (hn : 1 ≤ n) :
    ∃ k < n, bin2gray b ^^^ bin2gray (b + 1) = BitVec.twoPow n k := by
  obtain ⟨k, hk, hbits⟩ := exists_xor_succ_lowBits b hn
  exact ⟨k, hk, by rw [← bin2gray_xor, bin2gray_of_lowBits hk hbits]⟩

/-- A pointer's increment in Gray code, as numbers. -/
theorem exists_toNat_bin2gray_nextPtr {a : Nat} (p : BitVec (a + 1)) :
    ∃ k ≤ a, (bin2gray (nextPtr p)).toNat = (bin2gray p).toNat ^^^ 2 ^ k := by
  obtain ⟨k, hk, hxor⟩ := exists_bin2gray_xor_bin2gray_succ p (Nat.succ_pos a)
  refine ⟨k, Nat.le_of_lt_succ hk, ?_⟩
  calc (bin2gray (nextPtr p)).toNat = (bin2gray p ^^^ (bin2gray p ^^^ bin2gray (p + 1))).toNat := by
        rw [← BitVec.xor_assoc, BitVec.xor_self, BitVec.zero_xor, nextPtr]
    _ = (bin2gray p).toNat ^^^ 2 ^ k := by rw [hxor, BitVec.toNat_xor, BitVec.toNat_twoPow_of_lt hk]

end GrayCode

/-! ### What an operation does to a queue -/

/-- Everything an operation other than RESET can do to queue `id`: nothing, one port operation or one synchroniser alone,
or one of the three ticks. A word that is taken is the head word. -/
inductive QueueMove (era : Nat) (id : QueueId) {a : Nat} (q : Queue a) : Queue a → Prop where
  | stay : QueueMove era id q q
  | enqueue (w : Word) (space : q.spaceAvailable = true) : QueueMove era id q (q.enqueue w)
  | dequeue (data : q.dataAvailable = true) : QueueMove era id q (q.dequeue (q.headWord era id))
  | syncR2W : QueueMove era id q (q.shiftR2W q.rptrGray q.ghost.rc)
  | syncW2R : QueueMove era id q (q.shiftW2R q.wptrGray q.ghost.wc)
  | producerTick (wEn : Bool) (w : Word) : QueueMove era id q (q.producerTick wEn w)
  | consumerTick (rEn : Bool) (out : Word) (head : q.dataAvailable = true → out = q.headWord era id) :
      QueueMove era id q (q.consumerTick rEn out)
  | bothTick (wEn : Bool) (w : Word) (rEn : Bool) (out : Word) (dW dR : Bool)
      (head : q.dataAvailable = true → out = q.headWord era id) : QueueMove era id q (q.bothTick wEn w rEn out dW dR)

/-- What every operation but RESET owes: a state it answers keeps all but the block and the outputs, and each queue has made
one move. -/
def MovesQueues (s : State) : Result → Prop
  | .next t =>
    ∃ (b : Block s.cfg.a) (o : Obs s.cfg.a) (n : Nat) (ws : List Word),
      t = { s with blk := b, obs := o, looks := n, dropped := ws } ∧
        QueueMove s.era .inq s.blk.inq b.inq ∧ QueueMove s.era .outq s.blk.outq b.outq
  | _ => True

/-- The consumer port carries the head word while data is available (R38). -/
theorem Queue.rData_eq_headWord {a : Nat} {q : Queue a} (look era : Nat) (id : QueueId) (h : q.dataAvailable = true) :
    q.rData look era id = q.headWord era id := if_pos h

section Moves

variable {s : State}

theorem State.outWord_eq_headWord (h : s.blk.outq.dataAvailable = true) : s.outWord = s.blk.outq.headWord s.era .outq :=
  Queue.rData_eq_headWord _ _ _ h

theorem State.inWord_eq_headWord (h : s.blk.inq.dataAvailable = true) : s.inWord = s.blk.inq.headWord s.era .inq :=
  Queue.rData_eq_headWord _ _ _ h

/-- A committed state has moved its queues as its block has. -/
theorem movesQueues_commit {b : Block s.cfg.a} (o : Obs s.cfg.a) (hinq : QueueMove s.era .inq s.blk.inq b.inq)
    (houtq : QueueMove s.era .outq s.blk.outq b.outq) : MovesQueues s (.next (s.commit b o)) :=
  ⟨b, o, _, _, rfl, hinq, houtq⟩

/-- A commit that touches one queue moves it alone. -/
theorem movesQueues_commit_setQueue {id : QueueId} {q : Queue s.cfg.a} (o : Obs s.cfg.a)
    (h : QueueMove s.era id (s.queue id) q) : MovesQueues s (.next (s.commit (s.blk.setQueue id q) o)) := by
  cases id with
  | inq => exact movesQueues_commit o h .stay
  | outq => exact movesQueues_commit o .stay h

/-- Recording lost words moves no queue. -/
theorem MovesQueues.drop {t : State} (h : MovesQueues s (.next t)) (ws : List Word) : MovesQueues s (.next (t.drop ws)) := by
  obtain ⟨b, o, n, ws', rfl, hinq, houtq⟩ := h
  exact ⟨b, o, n, ws' ++ ws, rfl, hinq, houtq⟩

theorem movesQueues_perform {t : State} {selected : Bool} (h : selected = true → MovesQueues s (.next t)) :
    MovesQueues s (s.perform selected t) := by
  cases selected with
  | false => exact movesQueues_commit _ .stay .stay
  | true => exact h rfl

theorem movesQueues_performRow {t : State} (mask value key : BitVec 6) (h : MovesQueues s (.next t)) :
    MovesQueues s (s.performRow mask value key t) := by
  unfold State.performRow
  split
  · trivial
  · exact movesQueues_perform fun _ => h

theorem movesQueues_readWord (txe : Bool) (w : Word) : MovesQueues s (.next (s.readWord txe w)) := by
  refine .drop ?_ _
  exact movesQueues_commit _ (.producerTick _ _) .stay

theorem movesQueues_writeWord (rxf : Bool) : MovesQueues s (.next (s.writeWord rxf)) :=
  movesQueues_commit _ .stay (.consumerTick _ _ State.outWord_eq_headWord)

theorem movesQueues_peripheralTick (v : PI) : MovesQueues s (s.peripheralTick v) := by
  unfold State.peripheralTick
  split
  · trivial
  · exact .drop (movesQueues_commit _ (.producerTick _ _) (.consumerTick _ _ State.outWord_eq_headWord)) _

theorem movesQueues_hostTick (v : HI) : MovesQueues s (.next (s.hostTick v)) :=
  movesQueues_commit _ (.consumerTick _ _ State.inWord_eq_headWord) (.producerTick _ _)

theorem movesQueues_coincidentTick (v : PI) (x : HI) (d : Draws) : MovesQueues s (s.coincidentTick v x d) := by
  unfold State.coincidentTick
  split
  · trivial
  · exact .drop (movesQueues_commit _ (.bothTick _ _ _ _ _ _ State.inWord_eq_headWord)
      (.bothTick _ _ _ _ _ _ State.outWord_eq_headWord)) _

/-- Every operation but RESET moves each queue once. -/
theorem exec_movesQueues {i : Instr} (hi : ∀ p h, i ≠ .reset p h) : MovesQueues s (exec i s) := by
  cases i with
  | fsmIdleRead | fsmIdleWrite | fsmIdleHoldT0 | fsmIdleHoldD0 | fsmReadExit | fsmWriteExitT0 | fsmWriteExitD0 =>
    exact movesQueues_performRow _ _ _ (movesQueues_commit _ .stay .stay)
  | fsmReadCont => exact movesQueues_performRow _ _ _ (movesQueues_readWord _ _)
  | fsmWriteCont => exact movesQueues_performRow _ _ _ (movesQueues_writeWord _)
  | fsmReserved => trivial
  | enq =>
    exact movesQueues_perform fun hsel => movesQueues_commit_setQueue _ (.enqueue _ ((key_enq _).symm.trans hsel))
  | deq => exact movesQueues_perform fun hsel => movesQueues_commit_setQueue _ (.dequeue ((key_deq _).symm.trans hsel))
  | enqRefused | deqEmpty => exact movesQueues_perform fun _ => movesQueues_commit _ .stay .stay
  | prodIdle | consIdle | fillLevel => exact movesQueues_commit _ .stay .stay
  | syncR2W => exact movesQueues_commit_setQueue _ .syncR2W
  | syncW2R => exact movesQueues_commit_setQueue _ .syncW2R
  | submit | poll | tickH => exact movesQueues_hostTick _
  | advance caller =>
    cases caller with
    | host => exact movesQueues_hostTick _
    | peripheral v => exact movesQueues_peripheralTick v
  | tickP v => exact movesQueues_peripheralTick v
  | tickPH v x d => exact movesQueues_coincidentTick v x d
  | reset p h => exact absurd rfl (hi p h)

end Moves

/-! ### A Gray pointer in a move -/

section GrayPointers

variable {a : Nat} {q q' : Queue a} {era : Nat} {id : QueueId}

/-- A producer port keeps the Gray write pointer or sets it to the next pointer's code. -/
theorem Queue.producerOp_wptrGray_cases (q : Queue a) (en : Bool) (w : Word) :
    (q.producerOp en w).wptrGray = q.wptrGray ∨ (q.producerOp en w).wptrGray = bin2gray (nextPtr q.wptrBin) := by
  obtain ⟨-, hop⟩ | ⟨-, hop⟩ := q.producerOp_cases en w
  · exact .inr (by rw [hop, Queue.enqueue_wptrGray])
  · exact .inl (by rw [hop])

/-- A consumer port keeps the Gray read pointer or sets it to the next pointer's code. -/
theorem Queue.consumerOp_rptrGray_cases (q : Queue a) (en : Bool) (w : Word) :
    (q.consumerOp en w).rptrGray = q.rptrGray ∨ (q.consumerOp en w).rptrGray = bin2gray (nextPtr q.rptrBin) := by
  obtain ⟨-, hop⟩ | ⟨-, hop⟩ := q.consumerOp_cases en w
  · exact .inr (by rw [hop, Queue.dequeue_rptrGray])
  · exact .inl (by rw [hop])

/-- A move keeps the Gray write pointer or sets it to the code of the pointer's increment. -/
theorem QueueMove.wptrGray_cases (h : QueueMove era id q q') :
    q'.wptrGray = q.wptrGray ∨ q'.wptrGray = bin2gray (nextPtr q.wptrBin) := by
  cases h with
  | stay | dequeue | syncR2W | syncW2R => exact .inl rfl
  | enqueue => exact .inr rfl
  | producerTick en w => exact q.producerOp_wptrGray_cases en w
  | consumerTick en out => exact .inl (q.consumerOp_wptrGray en out)
  | bothTick wEn w rEn out dW dR =>
    have hkeep : (q.bothTick wEn w rEn out dW dR).wptrGray = (q.producerOp wEn w).wptrGray :=
      (q.producerOp wEn w).consumerOp_wptrGray rEn out
    rw [hkeep]
    exact q.producerOp_wptrGray_cases wEn w

/-- A move keeps the Gray read pointer or sets it to the code of the pointer's increment. -/
theorem QueueMove.rptrGray_cases (h : QueueMove era id q q') :
    q'.rptrGray = q.rptrGray ∨ q'.rptrGray = bin2gray (nextPtr q.rptrBin) := by
  cases h with
  | stay | enqueue | syncR2W | syncW2R => exact .inl rfl
  | dequeue => exact .inr rfl
  | producerTick en w => exact .inl (q.producerOp_rptrGray en w)
  | consumerTick en out => exact q.consumerOp_rptrGray_cases en out
  | bothTick wEn w rEn out =>
    have hport := (q.producerOp wEn w).consumerOp_rptrGray_cases rEn out
    rwa [Queue.producerOp_rptrGray, Queue.producerOp_rptrBin] at hport

/-- A register that holds a pointer's Gray code, and keeps it or takes the increment's, moves at most one bit. -/
theorem atMostOneBit_of_gray {p g g' : BitVec (a + 1)} (hg : g = bin2gray p) (hstep : g' = g ∨ g' = bin2gray (nextPtr p)) :
    g'.toNat = g.toNat ∨ ∃ k, k ≤ a ∧ g'.toNat = g.toNat ^^^ 2 ^ k := by
  obtain rfl | rfl := hstep
  · exact .inl rfl
  · exact .inr (hg ▸ exists_toNat_bin2gray_nextPtr p)

end GrayPointers

/-- The Gray pointers of a queue are the codes of its binary pointers (R23, R27). -/
theorem queueInv_gray_eq {a : Nat} {q : Queue a} (h : QueueInv q) :
    q.wptrGray = bin2gray q.wptrBin ∧ q.rptrGray = bin2gray q.rptrBin :=
  ⟨by rw [h.rep.wptrGray, h.rep.wptrBin], by rw [h.rep.rptrGray, h.rep.rptrBin]⟩

/-- One move of a queue whose registers represent its counts. -/
theorem QueueMove.atMostOneBit {a era : Nat} {id : QueueId} {q q' : Queue a} (hinv : QueueInv q)
    (hmove : QueueMove era id q q') :
    (q'.wptrGray.toNat = q.wptrGray.toNat ∨ ∃ k, k ≤ a ∧ q'.wptrGray.toNat = q.wptrGray.toNat ^^^ 2 ^ k) ∧
      (q'.rptrGray.toNat = q.rptrGray.toNat ∨ ∃ k, k ≤ a ∧ q'.rptrGray.toNat = q.rptrGray.toNat ^^^ 2 ^ k) := by
  obtain ⟨hw, hr⟩ := queueInv_gray_eq hinv
  exact ⟨atMostOneBit_of_gray hw hmove.wptrGray_cases, atMostOneBit_of_gray hr hmove.rptrGray_cases⟩

/-- Settles O49: each queue makes one move, and a move increments each pointer at most once. -/
theorem grayPointersMoveOneBit : Obligations.GrayPointersMoveOneBit := by
  intro i s t q hinv hexec hi
  have hmoves : MovesQueues s (exec i s) := exec_movesQueues hi
  rw [hexec] at hmoves
  obtain ⟨b, o, n, ws, rfl, hinq, houtq⟩ := hmoves
  cases q with
  | inq => exact hinq.atMostOneBit hinv.inq
  | outq => exact houtq.atMostOneBit hinv.outq

end Sys2Proof.Machine
end

section
/-! PROOFS of family 30_encoding.md (R90 to R105): the operation word and its fields, the Gray code's inverse, the rows of
key `FSM`, the step without an edge and the reserved state code. Encoding and decoding are inverse port by port: each row's
tested bits fix the bits the encoder writes there, and the guard leaves no bit outside the fields the row uses. -/

namespace Sys2Proof

/-! ### Queue and draws as the encoder writes them -/

/-- The draws field of a word (R202). -/
def Draws.bits (d : Draws) : BitVec 4 :=
  BitVec.ofBool d.d1 ++ BitVec.ofBool d.d2 ++ BitVec.ofBool d.d3 ++ BitVec.ofBool d.d4

/-- The draws are the bits of their field. -/
@[simp] theorem Fields.bits_drawBits (f : Fields) : f.drawBits.bits = f.draws := by
  unfold Fields.drawBits Draws.bits
  generalize f.draws = x
  revert x; decide

/-- The draws are read back from the field that holds them. -/
theorem Fields.drawBits_of_draws {f : Fields} {d : Draws} (h : f.draws = d.bits) : f.drawBits = d := by
  obtain ⟨d1, d2, d3, d4⟩ := d
  rw [Fields.drawBits, h]
  clear h
  revert d1 d2 d3 d4; decide

@[simp] theorem QueueId.bit_queueOfBit (b : Bool) : (queueOfBit b).bit = b := by cases b <;> rfl

/-! ### Keys: what the tested bits of each row say of the bits the key is made of (R100 to R104) -/

theorem stateCode_cases (st : BitVec 2) : st = 0#2 ∨ st = 1#2 ∨ st = 2#2 ∨ st = 3#2 := by revert st; decide

section Keys

variable (b1 b0 : Bool) (st : BitVec 2) (r t d s : Bool)

@[simp] theorem key2_getElem_one : (key2 b1 b0)[1] = b1 := by revert b1 b0; decide
@[simp] theorem key2_getElem_zero : (key2 b1 b0)[0] = b0 := by revert b1 b0; decide
@[simp] theorem key2_high : key2 b1 b0 &&& 0xFC#8 = 0#8 := by revert b1 b0; decide
@[simp] theorem key2_eq_three : key2 b1 b0 = 3#8 ↔ b1 = true ∧ b0 = true := by revert b1 b0; decide
@[simp] theorem key2_eq_two : key2 b1 b0 = 2#8 ↔ b1 = true ∧ b0 = false := by revert b1 b0; decide
@[simp] theorem key2_submit : key2 b1 b0 &&& 0xFE#8 = 2#8 ↔ b1 = true := by revert b1 b0; decide
@[simp] theorem key2_poll : key2 b1 b0 &&& 0xFD#8 = 1#8 ↔ b0 = true := by revert b1 b0; decide

/-- A key with no bit above the lowest two is one of those two bits. -/
theorem eq_key2_of_high {k : BitVec 8} (h : k &&& 0xFC#8 = 0#8) : k = key2 (k.getLsbD 1) (k.getLsbD 0) := by
  revert k; decide

/-- `HOST = 1p`. -/
theorem eq_key2_of_submit {k : BitVec 8} (h : k &&& 0xFE#8 = 2#8) : k = key2 true (k.getLsbD 0) := by
  revert k; decide

/-- `HOST = s1`. -/
theorem eq_key2_of_poll {k : BitVec 8} (h : k &&& 0xFD#8 = 1#8) : k = key2 (k.getLsbD 1) true := by
  revert k; decide

/-- A key with no bit above the lowest six is an `FSM` key. -/
theorem eq_key6_of_high {k : BitVec 8} (h : k &&& 0xC0#8 = 0#8) : ∃ st r t d s, k = key6 st r t d s := by
  refine ⟨k.extractLsb' 4 2, k.getLsbD 3, k.getLsbD 2, k.getLsbD 1, k.getLsbD 0, ?_⟩
  revert k; decide

/-- The key `STEP = 1ph`. -/
theorem eq_resetKey {k : BitVec 8} (hhigh : k &&& 0xF8#8 = 0#8) (hreset : k &&& 4#8 = 4#8) :
    k = 0#5 ++ BitVec.ofBool true ++ BitVec.ofBool (k.getLsbD 1) ++ BitVec.ofBool (k.getLsbD 0) := by
  revert k; decide

@[simp] theorem key6_getElem_three : (key6 st r t d s)[3] = r := by revert st r t d s; decide
@[simp] theorem key6_getElem_two : (key6 st r t d s)[2] = t := by revert st r t d s; decide
@[simp] theorem key6_getElem_one : (key6 st r t d s)[1] = d := by revert st r t d s; decide
@[simp] theorem key6_getElem_zero : (key6 st r t d s)[0] = s := by revert st r t d s; decide
@[simp] theorem key6_high : key6 st r t d s &&& 0xC0#8 = 0#8 := by revert st r t d s; decide
@[simp] theorem key6_idleRead : key6 st r t d s &&& 0x38#8 = 0x08#8 ↔ st = 0#2 ∧ r = true := by
  revert st r t d s; decide
@[simp] theorem key6_idleWrite : key6 st r t d s &&& 0x3E#8 = 0x06#8 ↔ st = 0#2 ∧ r = false ∧ t = true ∧ d = true := by
  revert st r t d s; decide
@[simp] theorem key6_idleHoldT0 : key6 st r t d s &&& 0x3C#8 = 0x00#8 ↔ st = 0#2 ∧ r = false ∧ t = false := by
  revert st r t d s; decide
@[simp] theorem key6_idleHoldD0 : key6 st r t d s &&& 0x3E#8 = 0x04#8 ↔ st = 0#2 ∧ r = false ∧ t = true ∧ d = false := by
  revert st r t d s; decide
@[simp] theorem key6_readCont : key6 st r t d s &&& 0x38#8 = 0x18#8 ↔ st = 1#2 ∧ r = true := by
  revert st r t d s; decide
@[simp] theorem key6_readExit : key6 st r t d s &&& 0x38#8 = 0x10#8 ↔ st = 1#2 ∧ r = false := by
  revert st r t d s; decide
@[simp] theorem key6_writeCont : key6 st r t d s &&& 0x36#8 = 0x26#8 ↔ st = 2#2 ∧ t = true ∧ d = true := by
  revert st r t d s; decide
@[simp] theorem key6_writeExitT0 : key6 st r t d s &&& 0x34#8 = 0x20#8 ↔ st = 2#2 ∧ t = false := by
  revert st r t d s; decide
@[simp] theorem key6_writeExitD0 : key6 st r t d s &&& 0x36#8 = 0x24#8 ↔ st = 2#2 ∧ t = true ∧ d = false := by
  revert st r t d s; decide

end Keys

/-! ### What a port accepts -/

/-- The fields that re-encoding gives: a port code and a key, the used fields of `f`, queue and draws as the encoder builds
them, and every other field 0. -/
def Fields.reencoded (f : Fields) (port key : BitVec 8) (useData usePi useWord useHi useDraws useQueue : Bool) : Fields where
  key         := key
  port        := port
  dataIn      := if useData then f.dataIn else 0#16
  txe         := usePi && f.txe
  rxf         := usePi && f.rxf
  submitWord  := if useWord then f.submitWord else 0#16
  pollReady   := useHi && f.pollReady
  submitValid := useHi && f.submitValid
  draws       := if useDraws then f.drawBits.bits else 0#4
  queue       := useQueue && (queueOfBit f.queue).bit
  spare       := 0#7

/-- Re-encoding fields with no unused bit set changes nothing but the port code. -/
theorem Fields.reencoded_of_clear {f : Fields} {useData usePi useWord useHi useDraws useQueue : Bool}
    (h : f.clear useData usePi useWord useHi useDraws useQueue = true) (port : BitVec 8) :
    f.reencoded port f.key useData usePi useWord useHi useDraws useQueue = { f with port := port } := by
  obtain ⟨hdata, hpi, hword, hhi, hdraws, hqueue, hspare⟩ := (f.clear_iff ..).1 h
  refine ext_fields rfl rfl ?_ ?_ ?_ ?_ ?_ ?_ ?_ ?_ hspare.symm
  · obtain rfl | h := hdata <;> simp [reencoded, *]
  · obtain rfl | h := hpi <;> simp [reencoded, *]
  · obtain rfl | h := hpi <;> simp [reencoded, *]
  · obtain rfl | h := hword <;> simp [reencoded, *]
  · obtain rfl | h := hhi <;> simp [reencoded, *]
  · obtain rfl | h := hhi <;> simp [reencoded, *]
  · obtain rfl | h := hdraws <;> simp [reencoded, *]
  · obtain rfl | h := hqueue <;> simp [reencoded, *]

/-- The fields `f` are, under the port code `port`, those of the word of a well-formed operation `i`. -/
def Fields.Encodes (f : Fields) (port : BitVec 8) (i : Instr) : Prop :=
  i.wellFormed = true ∧ encodeFields i = { f with port := port }

/-- What the guard accepts is encoded by the word's own fields, if re-encoding writes the fields the guard lets be used. -/
theorem Fields.encodes_of_guarded {f : Fields} {port key : BitVec 8} {i j : Instr}
    {useData usePi useWord useHi useDraws useQueue : Bool}
    (h : guarded (f.clear useData usePi useWord useHi useDraws useQueue) i = .op j) (hkey : f.key = key)
    (hwf : i.wellFormed = true)
    (henc : encodeFields i = f.reencoded port key useData usePi useWord useHi useDraws useQueue) : f.Encodes port j := by
  obtain ⟨hclear, rfl⟩ := guarded_op h
  subst hkey
  exact ⟨hwf, henc.trans (reencoded_of_clear hclear port)⟩

/-! ### Key FSM (R100, R169) -/

/-- The ten rows of key `FSM` in terms of the state code and the four inputs. -/
theorem decodeFsm_of_key6 {f : Fields} {st : BitVec 2} {r t d s : Bool} (hkey : f.key = key6 st r t d s) :
    decodeFsm f =
      let plain := f.clear false false false false false false
      if st = 0#2 ∧ r = true then guarded plain (.fsmIdleRead t d s)
      else if st = 0#2 ∧ r = false ∧ t = true ∧ d = true then guarded plain (.fsmIdleWrite s)
      else if st = 0#2 ∧ r = false ∧ t = false then guarded plain (.fsmIdleHoldT0 d s)
      else if st = 0#2 ∧ r = false ∧ t = true ∧ d = false then guarded plain (.fsmIdleHoldD0 s)
      else if st = 1#2 ∧ r = true then guarded (f.clear true false false false false false) (.fsmReadCont t d s f.dataIn)
      else if st = 1#2 ∧ r = false then guarded plain (.fsmReadExit t d s)
      else if st = 2#2 ∧ t = true ∧ d = true then guarded plain (.fsmWriteCont r s)
      else if st = 2#2 ∧ t = false then guarded plain (.fsmWriteExitT0 r d s)
      else if st = 2#2 ∧ t = true ∧ d = false then guarded plain (.fsmWriteExitD0 r s)
      else guarded plain (.fsmReserved r t d s) := by
  simp [decodeFsm, hkey]

/-- The last row takes what the nine others leave: the reserved state code. -/
theorem decodeFsm_op {f : Fields} {i : Instr} (h : decodeFsm f = .op i) : f.Encodes portFsm i := by
  by_cases hhigh : f.key &&& 0xC0#8 = 0#8
  case neg => simp [decodeFsm, hhigh] at h
  obtain ⟨st, r, t, d, s, hkey⟩ := eq_key6_of_high hhigh
  simp only [decodeFsm_of_key6 hkey] at h
  split_ifs at h with hread hwrite hholdT0 hholdD0 hreadCont hreadExit hwriteCont hexitT0 hexitD0
  · obtain ⟨rfl, rfl⟩ := hread
    exact Fields.encodes_of_guarded h hkey rfl rfl
  · obtain ⟨rfl, rfl, rfl, rfl⟩ := hwrite
    exact Fields.encodes_of_guarded h hkey rfl rfl
  · obtain ⟨rfl, rfl, rfl⟩ := hholdT0
    exact Fields.encodes_of_guarded h hkey rfl rfl
  · obtain ⟨rfl, rfl, rfl, rfl⟩ := hholdD0
    exact Fields.encodes_of_guarded h hkey rfl rfl
  · obtain ⟨rfl, rfl⟩ := hreadCont
    exact Fields.encodes_of_guarded h hkey rfl rfl
  · obtain ⟨rfl, rfl⟩ := hreadExit
    exact Fields.encodes_of_guarded h hkey rfl rfl
  · obtain ⟨rfl, rfl, rfl⟩ := hwriteCont
    exact Fields.encodes_of_guarded h hkey rfl rfl
  · obtain ⟨rfl, rfl⟩ := hexitT0
    exact Fields.encodes_of_guarded h hkey rfl rfl
  · obtain ⟨rfl, rfl, rfl⟩ := hexitD0
    exact Fields.encodes_of_guarded h hkey rfl rfl
  · have hst : st = 3#2 := by
      obtain rfl | rfl | rfl | rfl := stateCode_cases st <;> simp_all
    subst hst
    exact Fields.encodes_of_guarded h hkey rfl rfl

/-! ### The keys of a queue's ports (R101, R102) -/

/-- The rows of key `QW` in terms of the request and the flag. -/
theorem decodeQw_of_key2 {f : Fields} {e s : Bool} (hkey : f.key = key2 e s) :
    decodeQw f =
      let q := queueOfBit f.queue
      if e = true ∧ s = true then guarded (f.clear true false false false false true) (.enq q f.dataIn)
      else if e = true ∧ s = false then guarded (f.clear true false false false false true) (.enqRefused q f.dataIn)
      else guarded (f.clear false false false false false true) (.prodIdle q s) := by
  simp [decodeQw, hkey]

theorem decodeQw_op {f : Fields} {i : Instr} (h : decodeQw f = .op i) : f.Encodes portQw i := by
  by_cases hhigh : f.key &&& 0xFC#8 = 0#8
  case neg => simp [decodeQw, hhigh] at h
  obtain ⟨e, s, hkey⟩ : ∃ e s, f.key = key2 e s := ⟨_, _, eq_key2_of_high hhigh⟩
  simp only [decodeQw_of_key2 hkey] at h
  split_ifs at h with henq hrefused
  · obtain ⟨rfl, rfl⟩ := henq
    exact Fields.encodes_of_guarded h hkey rfl rfl
  · obtain ⟨rfl, rfl⟩ := hrefused
    exact Fields.encodes_of_guarded h hkey rfl rfl
  · obtain rfl : e = false := by grind
    exact Fields.encodes_of_guarded h hkey rfl rfl

theorem decodeQwSync_op {f : Fields} {i : Instr} (h : decodeQwSync f = .op i) : f.Encodes portQwSync i := by
  unfold decodeQwSync at h
  split_ifs at h with hundef
  exact Fields.encodes_of_guarded h (eq_key2_of_high (by simpa using hundef)) rfl rfl

/-- The rows of key `QR` in terms of the request and the flag. -/
theorem decodeQr_of_key2 {f : Fields} {e a : Bool} (hkey : f.key = key2 e a) :
    decodeQr f =
      let q := queueOfBit f.queue
      let plain := f.clear false false false false false true
      if e = true ∧ a = true then guarded plain (.deq q)
      else if e = true ∧ a = false then guarded plain (.deqEmpty q)
      else guarded plain (.consIdle q a) := by
  simp [decodeQr, hkey]

theorem decodeQr_op {f : Fields} {i : Instr} (h : decodeQr f = .op i) : f.Encodes portQr i := by
  by_cases hhigh : f.key &&& 0xFC#8 = 0#8
  case neg => simp [decodeQr, hhigh] at h
  obtain ⟨e, a, hkey⟩ : ∃ e a, f.key = key2 e a := ⟨_, _, eq_key2_of_high hhigh⟩
  simp only [decodeQr_of_key2 hkey] at h
  split_ifs at h with hdeq hempty
  · obtain ⟨rfl, rfl⟩ := hdeq
    exact Fields.encodes_of_guarded h hkey rfl rfl
  · obtain ⟨rfl, rfl⟩ := hempty
    exact Fields.encodes_of_guarded h hkey rfl rfl
  · obtain rfl : e = false := by grind
    exact Fields.encodes_of_guarded h hkey rfl rfl

theorem decodeQrSync_op {f : Fields} {i : Instr} (h : decodeQrSync f = .op i) : f.Encodes portQrSync i := by
  unfold decodeQrSync at h
  split_ifs at h with hundef
  exact Fields.encodes_of_guarded h (eq_key2_of_high (by simpa using hundef)) rfl rfl

/-! ### The host's keys (R103, R206, R207) -/

theorem decodeSubmit_of_key2 {f : Fields} {p : Bool} (hkey : f.key = key2 true p) :
    decodeSubmit f = guarded (f.clear false false true false false false) (.submit p f.submitWord) := by
  simp [decodeSubmit, hkey]

theorem decodeSubmit_op {f : Fields} {i : Instr} (h : decodeSubmit f = .op i) : f.Encodes portSubmit i := by
  unfold decodeSubmit at h
  split_ifs at h with hundef
  exact Fields.encodes_of_guarded h (eq_key2_of_submit (by simpa using hundef)) rfl rfl

theorem decodePoll_of_key2 {f : Fields} {s : Bool} (hkey : f.key = key2 s true) :
    decodePoll f = guarded (f.clear false false s false false false) (.poll s f.submitWord) := by
  simp [decodePoll, hkey]

/-- Without a submit slot the word must be 0, so that the encoder's word is the one that was decoded. -/
theorem decodePoll_op {f : Fields} {i : Instr} (h : decodePoll f = .op i) : f.Encodes portPoll i := by
  unfold decodePoll at h
  split_ifs at h with hundef
  have hkey := eq_key2_of_poll (k := f.key) (by simpa using hundef)
  generalize f.key.getLsbD 1 = s at h hkey
  cases s with
  | true => exact Fields.encodes_of_guarded h hkey rfl rfl
  | false =>
    obtain ⟨-, -, hword, -⟩ := (f.clear_iff ..).1 (guarded_op h).1
    rw [show f.submitWord = 0#16 by simpa using hword] at h
    exact Fields.encodes_of_guarded h hkey rfl rfl

theorem decodeAdvanceH_op {f : Fields} {i : Instr} (h : decodeAdvanceH f = .op i) : f.Encodes portAdvanceH i := by
  unfold decodeAdvanceH at h
  split_ifs at h with hundef
  have hkey : f.key = 0#8 := by simpa using hundef
  exact Fields.encodes_of_guarded h hkey rfl rfl

theorem decodeAdvanceP_op {f : Fields} {i : Instr} (h : decodeAdvanceP f = .op i) : f.Encodes portAdvanceP i := by
  unfold decodeAdvanceP at h
  split_ifs at h with hundef
  have hkey : f.key = 2#8 := by simpa using hundef
  exact Fields.encodes_of_guarded h hkey rfl rfl

theorem decodeFill_op {f : Fields} {i : Instr} (h : decodeFill f = .op i) : f.Encodes portFill i := by
  unfold decodeFill at h
  split_ifs at h with hundef
  have hkey : f.key = 0#8 := by simpa using hundef
  exact Fields.encodes_of_guarded h hkey rfl rfl

/-! ### Key STEP (R104) -/

theorem decodeStep_tickPH {f : Fields} (hkey : f.key = 3#8) :
    decodeStep f = guarded (f.clear true true true true true false) (.tickPH f.pi f.hi f.drawBits) := by
  simp [decodeStep, hkey]

theorem decodeStep_tickP {f : Fields} (hkey : f.key = 2#8) :
    decodeStep f = guarded (f.clear true true false false false false) (.tickP f.pi) := by
  simp [decodeStep, hkey]

theorem decodeStep_tickH {f : Fields} (hkey : f.key = 1#8) :
    decodeStep f = guarded (f.clear false false true true false false) (.tickH f.hi) := by
  simp [decodeStep, hkey]

theorem decodeStep_op {f : Fields} {i : Instr} (h : decodeStep f = .op i) : f.Encodes portStep i := by
  unfold decodeStep at h
  split_ifs at h with hundef hreset hboth hp hh
  · have hkey := eq_resetKey (k := f.key) (by simpa using hundef) (eq_of_beq hreset)
    exact Fields.encodes_of_guarded h hkey rfl rfl
  · exact Fields.encodes_of_guarded (key := 3#8) h (eq_of_beq hboth) rfl rfl
  · exact Fields.encodes_of_guarded (key := 2#8) h (eq_of_beq hp) rfl rfl
  · exact Fields.encodes_of_guarded (key := 1#8) h (eq_of_beq hh) rfl rfl

/-! ### The whole word -/

/-- A bare key stands for an operation that another port code names (log entry 4). -/
theorem decodeBare_op {f : Fields} {i : Instr} (h : decodeBare f = .op i) : ∃ port, f.Encodes port i := by
  unfold decodeBare at h
  split_ifs at h
  · exact ⟨_, decodeAdvanceH_op h⟩
  · exact ⟨_, decodeStep_op h⟩
  · exact ⟨_, decodeFsm_op h⟩

/-- The fields are those of the word of a well-formed operation, under their own port code unless that is a bare key's. -/
def Fields.IsEncodingOf (f : Fields) (i : Instr) : Prop :=
  ∃ port, f.Encodes port i ∧ (f.port ≠ portNone → port = f.port)

/-- A choice that accepts does so on one of its branches. -/
theorem op_of_ite {c : Bool} {x y : Decoded} {i : Instr} {P : Prop} (h : (if c then x else y) = .op i)
    (hthen : c = true → x = .op i → P) (helse : y = .op i → P) : P := by
  cases c with
  | true => exact hthen rfl h
  | false => exact helse h

/-- One rung of the decoder's choice by port code. -/
theorem Fields.isEncodingOf_of_port {f : Fields} {i : Instr} {port : BitVec 8} {x y : Decoded}
    (h : (if f.port == port then x else y) = .op i) (hport : x = .op i → f.Encodes port i)
    (hother : y = .op i → f.IsEncodingOf i) : f.IsEncodingOf i :=
  op_of_ite h (fun hb hx => ⟨port, hport hx, fun _ => (eq_of_beq hb).symm⟩) hother

/-- Port by port, in the order of the decoder. -/
theorem decodeFields_op {f : Fields} {i : Instr} (h : decodeFields f = .op i) : f.IsEncodingOf i := by
  refine op_of_ite h (fun hbare h => ?_) fun h => ?_
  · obtain ⟨port, henc⟩ := decodeBare_op (op_of_ite h (fun _ h => h) nofun)
    exact ⟨port, henc, fun hne => absurd (eq_of_beq hbare) hne⟩
  refine Fields.isEncodingOf_of_port h decodeFsm_op fun h => ?_
  refine Fields.isEncodingOf_of_port h decodeQw_op fun h => ?_
  refine Fields.isEncodingOf_of_port h decodeQwSync_op fun h => ?_
  refine Fields.isEncodingOf_of_port h decodeQr_op fun h => ?_
  refine Fields.isEncodingOf_of_port h decodeQrSync_op fun h => ?_
  refine Fields.isEncodingOf_of_port h decodeSubmit_op fun h => ?_
  refine Fields.isEncodingOf_of_port h decodePoll_op fun h => ?_
  refine Fields.isEncodingOf_of_port h decodeAdvanceH_op fun h => ?_
  refine Fields.isEncodingOf_of_port h decodeAdvanceP_op fun h => ?_
  refine Fields.isEncodingOf_of_port h decodeFill_op fun h => ?_
  refine Fields.isEncodingOf_of_port h decodeStep_op fun h => ?_
  exact Fields.isEncodingOf_of_port h nofun nofun

/-- Every operation's key selects its own row, whose guard its fields pass; a `POLL` without a submit slot passes it because
a well-formed one carries no word (R98). -/
theorem decodeFields_encodeFields {i : Instr} (hwf : i.wellFormed = true) : decodeFields (encodeFields i) = .op i := by
  cases i with
  | fsmIdleRead | fsmIdleWrite | fsmIdleHoldT0 | fsmIdleHoldD0 | fsmReadCont | fsmReadExit | fsmWriteCont
  | fsmWriteExitT0 | fsmWriteExitD0 | fsmReserved => exact (decodeFsm_of_key6 rfl).trans rfl
  | enq q | enqRefused q | prodIdle q => exact (decodeQw_of_key2 rfl).trans (by cases q <;> rfl)
  | deq q | deqEmpty q | consIdle q => exact (decodeQr_of_key2 rfl).trans (by cases q <;> rfl)
  | syncR2W q e s => cases q <;> cases e <;> cases s <;> rfl
  | syncW2R q e a => cases q <;> cases e <;> cases a <;> rfl
  | submit => exact (decodeSubmit_of_key2 rfl).trans rfl
  | poll s word =>
    refine (decodePoll_of_key2 rfl).trans ?_
    cases s with
    | true => rfl
    | false =>
      obtain rfl : word = 0#16 := by simpa [Instr.wellFormed] using hwf
      rfl
  | advance caller => cases caller <;> rfl
  | fillLevel q => cases q <;> rfl
  | tickP => exact (decodeStep_tickP rfl).trans rfl
  | tickH => exact (decodeStep_tickH rfl).trans rfl
  | tickPH pi hi draws =>
    have hdraws : (encodeFields (.tickPH pi hi draws)).drawBits = draws := Fields.drawBits_of_draws rfl
    refine (decodeStep_tickPH rfl).trans ?_
    rw [hdraws]
    rfl
  | reset p h => cases p <;> cases h <;> rfl

/-! ### The statements about the operation word -/

/-- Settles O5: no field is lost in the word, and the decoder finds in the fields the operation they were written for. -/
theorem decodeOfEncodeIsTheOperation : Obligations.DecodeOfEncodeIsTheOperation := by
  intro i hwf
  rw [decode, encode, Fields.ofWord_toWord, decodeFields_encodeFields hwf]

/-- Settles O6: each port accepts encodings only, and no bit of the word stands outside its fields. -/
theorem decodedWordIsItsEncoding : Obligations.DecodedWordIsItsEncoding := by
  intro w i h
  obtain ⟨port, ⟨hwf, henc⟩, hport⟩ := decodeFields_op h
  refine ⟨hwf, fun hne => ?_⟩
  calc encode i = ({ Fields.ofWord w with port := port } : Fields).toWord := congrArg Fields.toWord henc
    _ = (Fields.ofWord w).toWord := by rw [hport hne]
    _ = w := Fields.toWord_ofWord w

/-- A written word is decoded by writing the operation it encodes. -/
theorem decode_of_eq_encode {w : OpWord} {i : Instr} (hwf : i.wellFormed = true) (hw : w = encode i) : decode w = .op i :=
  hw ▸ decodeOfEncodeIsTheOperation i hwf

/-- Settles O7: each written word is the encoding of its operation. -/
theorem writtenWordsDecode : Obligations.WrittenWordsDecode := by
  exact ⟨decode_of_eq_encode rfl (by decide), decode_of_eq_encode rfl (by decide), decode_of_eq_encode rfl (by decide),
    decode_of_eq_encode rfl (by decide), decode_of_eq_encode rfl (by decide)⟩

end Sys2Proof

namespace Sys2Proof.Machine

open Sys2Proof.Safety

/-! ### The inverse of the Gray code (R91) -/

section GrayInverse

variable {n : Nat}

/-- A bit of the fold, one shift further. -/
theorem getLsbD_foldShifts_succ (g : BitVec n) (k i : Nat) :
    (foldShifts g (k + 1)).getLsbD i = (g.getLsbD i ^^ (foldShifts g k).getLsbD (i + 1)) := by
  simp [foldShifts, Nat.add_comm]

/-- The fold is complete at bit `i` once it has reached the top bit: further shifts bring in nothing. -/
theorem getLsbD_foldShifts_of_le (g : BitVec n) {k i : Nat} (h : n ≤ i + k) :
    (foldShifts g (k + 1)).getLsbD i = (foldShifts g k).getLsbD i := by
  induction k generalizing i with
  | zero => simp [foldShifts, BitVec.getLsbD_of_ge g i h]
  | succ k ih =>
    rw [getLsbD_foldShifts_succ g (k + 1) i, getLsbD_foldShifts_succ g k i, ih (by omega)]

/-- R91's recurrence at every bit; above the top bit both operands are 0. -/
theorem getLsbD_gray2bin (g : BitVec n) (i : Nat) :
    (gray2bin g).getLsbD i = (g.getLsbD i ^^ (gray2bin g).getLsbD (i + 1)) := by
  calc (foldShifts g n).getLsbD i = (foldShifts g (n + 1)).getLsbD i :=
        (getLsbD_foldShifts_of_le g (Nat.le_add_left n i)).symm
    _ = (g.getLsbD i ^^ (foldShifts g n).getLsbD (i + 1)) := getLsbD_foldShifts_succ g n i

/-- The fold of a Gray code telescopes: all bits but the two ends cancel. -/
theorem getLsbD_foldShifts_bin2gray (b : BitVec n) (k i : Nat) :
    (foldShifts (bin2gray b) k).getLsbD i = (b.getLsbD i ^^ b.getLsbD (i + k)) := by
  induction k generalizing i with
  | zero => simp [foldShifts]
  | succ k ih =>
    rw [getLsbD_foldShifts_succ, getLsbD_bin2gray, ih, Nat.add_right_comm, Nat.add_assoc i k 1]
    simp

/-- `gray2bin(bin2gray(b)) = b` (R91): the lower end of the telescope is the bit itself, the upper one is above the top. -/
theorem gray2bin_bin2gray (b : BitVec n) : gray2bin (bin2gray b) = b := by
  refine BitVec.eq_of_getLsbD_eq fun i _ => ?_
  rw [gray2bin, getLsbD_foldShifts_bin2gray, BitVec.getLsbD_of_ge b (i + n) (Nat.le_add_left n i), Bool.xor_false]

/-- The recurrence, read the other way round. -/
theorem bin2gray_gray2bin (g : BitVec n) : bin2gray (gray2bin g) = g := by
  refine BitVec.eq_of_getLsbD_eq fun i _ => ?_
  rw [getLsbD_bin2gray, getLsbD_gray2bin g i, Bool.xor_assoc, Bool.xor_self, Bool.xor_false]

end GrayInverse

/-- Settles O2: R91's recurrence is the fold's, and the fold of a Gray code telescopes. -/
theorem grayToBinaryInverts : Obligations.GrayToBinaryInverts := by
  refine fun n g b => ⟨fun i hi => ?_, fun i _ => ?_, gray2bin_bin2gray b, bin2gray_gray2bin g⟩
  · rw [getLsbD_gray2bin, BitVec.getLsbD_of_ge _ (i + 1) (by omega), Bool.xor_false]
  · rw [getLsbD_gray2bin, Bool.xor_comm]

/-- Settles O3: an increment inverts a block of low bits, and the Gray code of a block is its top bit. -/
theorem grayNeighboursDifferInOneBit : Obligations.GrayNeighboursDifferInOneBit :=
  fun _ b hn => exists_bin2gray_xor_bin2gray_succ b hn

/-- Settles O1: both clauses are one equation; above the top bit stands 0. -/
theorem binaryToGrayBitByBit : Obligations.BinaryToGrayBitByBit := by
  refine fun n b => ⟨rfl, fun i _ => ?_, fun i hi => ?_⟩
  · rw [getLsbD_bin2gray, Bool.xor_comm]
  · rw [getLsbD_bin2gray, BitVec.getLsbD_of_ge b (i + 1) (by omega), Bool.xor_false]

/-! ### The rows of key `FSM` (R100, R169) -/

/-- With a defined state code the rows give the next state of the policy. -/
theorem nextFsm_fsmKey {st : BitVec 2} (hst : st ≠ RESERVED) (r t d sp : Bool) :
    nextFsm (fsmKey st r t d sp) = some (policy st r t d) := by
  revert st r t d sp
  decide

/-- With a defined state code exactly one row matches. -/
theorem length_filter_fsmRows {st : BitVec 2} (hst : st ≠ RESERVED) (r t d sp : Bool) :
    (fsmRows.filter fun row => keySelects row.1 row.2.1 (fsmKey st r t d sp)).length = 1 := by
  revert st r t d sp
  decide

/-- With the reserved code no row matches. -/
theorem nextFsm_fsmKey_reserved (r t d sp : Bool) : nextFsm (fsmKey RESERVED r t d sp) = none := by
  revert r t d sp
  decide

/-- Settles O4: the 64 keys, by state code. -/
theorem fsmRowsPartitionTheKeys : Obligations.FsmRowsPartitionTheKeys := by
  refine fun st r t d sp => ⟨fun hst => ⟨nextFsm_fsmKey hst r t d sp, length_filter_fsmRows hst r t d sp⟩, ?_⟩
  rintro rfl
  exact nextFsm_fsmKey_reserved r t d sp

/-! ### A step without an edge (R104) -/

/-- A word that presents no edge: `STEP = 000` (R104), or no operation of the block and no partial reset. -/
def PresentsNoEdge (w : OpWord) : Prop := decode w = .noStep ∨ ∃ e, decode w = .bad e ∧ e ≠ .partialReset

/-- Such a word is taken off, and nothing else changes. -/
theorem step_of_presentsNoEdge {s : State} {w : OpWord} {rest : List OpWord} (hl : s.cfg.legal = true)
    (hp : s.pending = w :: rest) (hw : PresentsNoEdge w) : step s = .next { s with pending := rest } := by
  obtain hd | ⟨e, hd, hne⟩ := hw
  · simp only [step, hl, if_true, hp, hd]
  · cases e with
    | partialReset => exact absurd rfl hne
    | unknownPort | undefinedKey | reservedBits => simp only [step, hl, if_true, hp, hd]

/-- With nothing pending a step is the identity. -/
theorem step_of_pending_nil {s : State} (hl : s.cfg.legal = true) (hp : s.pending = []) : step s = .next s := by
  simp only [step, hl, if_true, hp]

/-- Settles O9: nothing pending is no edge, and neither word presents one. -/
theorem noEdgeChangesNothing : Obligations.NoEdgeChangesNothing := by
  intro s hl
  refine ⟨step_of_pending_nil hl, fun rest hp => ?_, fun w e rest hp hd hne => ?_⟩
  · exact step_of_presentsNoEdge hl hp (.inl (by decide))
  · exact step_of_presentsNoEdge hl hp (.inr ⟨e, hd, hne⟩)

/-! ### The reserved state code (R105, R169) -/

theorem State.peripheralTick_of_reserved {s : State} (h : s.blk.fsm = RESERVED) (v : PI) :
    s.peripheralTick v = .fault .reservedFsmState := by
  simp only [State.peripheralTick, nextFsm_key_none.2 h]

theorem State.coincidentTick_of_reserved {s : State} (h : s.blk.fsm = RESERVED) (v : PI) (x : HI) (d : Draws) :
    s.coincidentTick v x d = .fault .reservedFsmState := by
  simp only [State.coincidentTick, nextFsm_key_none.2 h]

/-- Every transition first looks its key up in the rows, and the reserved code has none. -/
theorem exec_transition_of_reserved {i : Instr} {s : State} (hs : s.blk.fsm = RESERVED) (hi : isTransition i = true) :
    exec i s = .fault .reservedFsmState := by
  cases i with
  | fsmIdleRead | fsmIdleWrite | fsmIdleHoldT0 | fsmIdleHoldD0 | fsmReadCont | fsmReadExit | fsmWriteCont
  | fsmWriteExitT0 | fsmWriteExitD0 => exact State.performRow_fault.2 (nextFsm_key_none.2 hs)
  | fsmReserved => rfl
  | _ => cases hi

/-- Settles O25: the reserved code has no row, so what looks one up stops; an H edge looks none up. -/
theorem reservedStateCodeFaults : Obligations.ReservedStateCodeFaults := by
  refine ⟨fun r t d sp s => rfl, fun i s hs hi => exec_transition_of_reserved hs hi, fun s v h x hs => ?_⟩
  exact ⟨s.peripheralTick_of_reserved hs v, s.coincidentTick_of_reserved hs v h x, s.peripheralTick_of_reserved hs v,
    _, rfl⟩

end Sys2Proof.Machine
end

section
/-! PROOFS of family 40_queue_ops.md (R130 to R139): what each port operation leaves when its key selects it, and what a
producer and a consumer tick do to a queue. Each operation is first brought to `s.commit` of the block it leaves; each tick
is its operation followed by the synchroniser's shift. -/

namespace Sys2Proof.Machine

open Sys2Proof.Safety

/-! ### The answer of a port -/

section Answers

variable (a : Nat) (id : QueueId) (p : PortObs) (es : List (Event × QueueId))

@[simp] theorem portAnswer_portObs : portAnswer (portObs a id p es) id = p := by cases id <;> rfl
@[simp] theorem portObs_events : (portObs a id p es).events = es := by cases id <;> rfl

end Answers

/-! ### The frame of a port operation -/

section Ports

variable (s : State) (id : QueueId) (w : Word)

/-- An operation that keeps the block changes the observation and the count of looks alone. -/
theorem State.commit_blk_self (o : Obs s.cfg.a) : s.commit s.blk o = { s with obs := o, looks := s.looks + 2 } := rfl

/-- An operation on one queue keeps the rest of the block. -/
theorem State.commit_setQueue (q : Queue s.cfg.a) (o : Obs s.cfg.a) :
    s.commit (s.blk.setQueue id q) o = { s.setQueue id q with obs := o, looks := s.looks + 2 } := rfl

theorem State.perform_of_selected {selected : Bool} (h : selected = true) (t : State) : s.perform selected t = .next t :=
  State.perform_next.2 (.inl ⟨h, rfl⟩)

/-! ### The port operations, where their keys select them (R130 to R133, R135 to R138) -/

variable {s id}

theorem exec_enq (h : (s.queue id).spaceAvailable = true) :
    exec (.enq id w) s =
      .next (s.commit (s.blk.setQueue id ((s.queue id).enqueue w)) (portObs s.cfg.a id (producerObs true) [])) :=
  s.perform_of_selected ((key_enq _).trans h) _

theorem exec_enqRefused (h : (s.queue id).spaceAvailable = false) :
    exec (.enqRefused id w) s =
      .next (s.commit s.blk (portObs s.cfg.a id (producerObs false) [(.capacityViolation, id)])) :=
  s.perform_of_selected ((key_enqRefused _).trans (by rw [h]; rfl)) _

theorem exec_deq (h : (s.queue id).dataAvailable = true) :
    exec (.deq id) s =
      .next (s.commit (s.blk.setQueue id ((s.queue id).dequeue ((s.queue id).headWord s.era id)))
        (portObs s.cfg.a id (consumerObs true ((s.queue id).headWord s.era id)) [])) :=
  s.perform_of_selected ((key_deq _).trans h) _

theorem exec_deqEmpty (h : (s.queue id).dataAvailable = false) :
    exec (.deqEmpty id) s = .next (s.commit s.blk (portObs s.cfg.a id ⟨false, false, none⟩ [(.emptyDequeue, id)])) :=
  s.perform_of_selected ((key_deqEmpty _).trans (by rw [h]; rfl)) _

variable (s id)

theorem exec_prodIdle (sp : Bool) :
    exec (.prodIdle id sp) s = .next (s.commit s.blk (portObs s.cfg.a id (producerObs false) [])) := rfl

theorem exec_consIdle (da : Bool) :
    exec (.consIdle id da) s = .next (s.commit s.blk (portObs s.cfg.a id ⟨false, false, none⟩ [])) := rfl

theorem exec_syncR2W (e sp : Bool) :
    exec (.syncR2W id e sp) s =
      .next (s.commit (s.blk.setQueue id ((s.queue id).shiftR2W (s.queue id).rptrGray (s.queue id).ghost.rc))
        (Obs.blank s.cfg.a)) := rfl

theorem exec_syncW2R (e da : Bool) :
    exec (.syncW2R id e da) s =
      .next (s.commit (s.blk.setQueue id ((s.queue id).shiftW2R (s.queue id).wptrGray (s.queue id).ghost.wc))
        (Obs.blank s.cfg.a)) := rfl

end Ports

/-! ### The ticks of one queue (R134, R139) -/

theorem Memory.read_write (m : Memory) (i : Nat) (w : Word) (k : Nat) :
    Memory.read (Memory.write m i w) k = if k = i then some w else Memory.read m k := by
  split
  case isTrue h => rw [h, Memory.read_write_same]
  case isFalse h => exact Memory.read_write_other m w h

section Ticks

variable {a : Nat} {q : Queue a} {en : Bool}

/-- `enq_fire` (R120) over the level of R35, which the pre-edge `w_rsync2` gives. -/
theorem Queue.enqFire_iff :
    q.enqFire en = true ↔ en = true ∧ q.wptrBin - gray2bin q.wRsync2 ≠ BitVec.ofNat (a + 1) (2 ^ a) := by
  simp [Queue.enqFire, Queue.spaceAvailable, Queue.full, Queue.wLevel, depthLevel]

/-- `deq_fire` (R121) over the level of R36, which the pre-edge `r_wsync2` gives. -/
theorem Queue.deqFire_iff : q.deqFire en = true ↔ en = true ∧ gray2bin q.rWsync2 - q.rptrBin ≠ 0 := by
  simp [Queue.deqFire, Queue.dataAvailable, Queue.empty, Queue.rLevel]

variable (w : Word)

theorem Queue.producerTick_of_enqFire (h : q.enqFire en = true) :
    q.producerTick en w = (q.enqueue w).shiftR2W q.rptrGray q.ghost.rc := by
  rw [Queue.producerTick, Queue.producerOp, if_pos h]

theorem Queue.producerTick_of_not_enqFire (h : ¬ q.enqFire en = true) :
    q.producerTick en w = q.shiftR2W q.rptrGray q.ghost.rc := by
  rw [Queue.producerTick, Queue.producerOp, if_neg h]

theorem Queue.consumerTick_of_deqFire (h : q.deqFire en = true) :
    q.consumerTick en w = (q.dequeue w).shiftW2R q.wptrGray q.ghost.wc := by
  rw [Queue.consumerTick, Queue.consumerOp, if_pos h]

theorem Queue.consumerTick_of_not_deqFire (h : ¬ q.deqFire en = true) :
    q.consumerTick en w = q.shiftW2R q.wptrGray q.ghost.wc := by
  rw [Queue.consumerTick, Queue.consumerOp, if_neg h]

variable (q en)

@[simp] theorem Queue.producerTick_wRsync1 : (q.producerTick en w).wRsync1 = q.rptrGray := rfl
@[simp] theorem Queue.producerTick_wRsync2 : (q.producerTick en w).wRsync2 = q.wRsync1 := q.producerOp_wRsync1 en w
@[simp] theorem Queue.producerTick_rptrBin : (q.producerTick en w).rptrBin = q.rptrBin := q.producerOp_rptrBin en w
@[simp] theorem Queue.producerTick_rptrGray : (q.producerTick en w).rptrGray = q.rptrGray := q.producerOp_rptrGray en w
@[simp] theorem Queue.producerTick_rWsync1 : (q.producerTick en w).rWsync1 = q.rWsync1 := q.producerOp_rWsync1 en w
@[simp] theorem Queue.producerTick_rWsync2 : (q.producerTick en w).rWsync2 = q.rWsync2 := q.producerOp_rWsync2 en w

@[simp] theorem Queue.consumerTick_rWsync1 : (q.consumerTick en w).rWsync1 = q.wptrGray := rfl
@[simp] theorem Queue.consumerTick_rWsync2 : (q.consumerTick en w).rWsync2 = q.rWsync1 := q.consumerOp_rWsync1 en w
@[simp] theorem Queue.consumerTick_mem : (q.consumerTick en w).mem = q.mem := q.consumerOp_mem en w
@[simp] theorem Queue.consumerTick_wptrBin : (q.consumerTick en w).wptrBin = q.wptrBin := q.consumerOp_wptrBin en w
@[simp] theorem Queue.consumerTick_wptrGray : (q.consumerTick en w).wptrGray = q.wptrGray := q.consumerOp_wptrGray en w
@[simp] theorem Queue.consumerTick_wRsync1 : (q.consumerTick en w).wRsync1 = q.wRsync1 := q.consumerOp_wRsync1 en w
@[simp] theorem Queue.consumerTick_wRsync2 : (q.consumerTick en w).wRsync2 = q.wRsync2 := q.consumerOp_wRsync2 en w

end Ticks

/-! ### The statements about the port operations -/

/-- Settles O27: `ENQ` is selected by its key, and its storage write is read back at that index alone. -/
theorem enqueueStoresAndAdvances : Obligations.EnqueueStoresAndAdvances := by
  intro q w s hspace
  refine ⟨Memory.write (s.queue q).mem (indexOf (s.queue q).wptrBin) w, portObs s.cfg.a q (producerObs true) [],
    s.looks + 2, ?_, ?_, ?_, ?_⟩
  · rw [exec_enq w hspace, State.commit_setQueue]
    rfl
  · exact memRead_write_same ..
  · exact fun i hi => memRead_write_other _ _ _ w hi
  · exact congrArg PortObs.enqFire (portAnswer_portObs ..)

/-- Settles O28: both operations leave the block as it is. -/
theorem refusedAndIdleProducersChangeNothing : Obligations.RefusedAndIdleProducersChangeNothing := by
  refine ⟨fun q w s hfull => ⟨portObs s.cfg.a q (producerObs false) [(.capacityViolation, q)], s.looks + 2, ?_, ?_, ?_⟩,
    fun q sp s => ⟨portObs s.cfg.a q (producerObs false) [], s.looks + 2, ?_, ?_⟩⟩
  · rw [exec_enqRefused w hfull, State.commit_blk_self]
  · exact congrArg PortObs.enqFire (portAnswer_portObs ..)
  · exact portObs_events ..
  · rw [exec_prodIdle, State.commit_blk_self]
  · exact congrArg PortObs.enqFire (portAnswer_portObs ..)

/-- Settles O29: each synchroniser is one shift of its queue. -/
theorem synchronisersShift : Obligations.SynchronisersShift := by
  refine ⟨fun q e sp s => ⟨Obs.blank s.cfg.a, s.looks + 2, ?_⟩, fun q e da s => ⟨Obs.blank s.cfg.a, s.looks + 2, ?_⟩⟩
  · rw [exec_syncR2W, State.commit_setQueue]
    rfl
  · rw [exec_syncW2R, State.commit_setQueue]
    rfl

/-- Settles O30: `DEQ` is selected by its key, and the word it returns is the head entry before the edge. -/
theorem dequeueReturnsHeadAndAdvances : Obligations.DequeueReturnsHeadAndAdvances := by
  intro q s hdata
  refine ⟨portObs s.cfg.a q (consumerObs true ((s.queue q).headWord s.era q)) [], s.looks + 2, ?_, ?_, ?_⟩
  · rw [exec_deq hdata, State.commit_setQueue]
    rfl
  · exact congrArg PortObs.deqFire (portAnswer_portObs ..)
  · exact congrArg PortObs.word (portAnswer_portObs ..)

/-- Settles O31: both operations leave the block as it is and answer without a word. -/
theorem emptyAndIdleConsumersChangeNothing : Obligations.EmptyAndIdleConsumersChangeNothing := by
  refine ⟨fun q s hempty => ⟨portObs s.cfg.a q ⟨false, false, none⟩ [(.emptyDequeue, q)], s.looks + 2, ?_, ?_, ?_, ?_⟩,
    fun q da s => ⟨portObs s.cfg.a q ⟨false, false, none⟩ [], s.looks + 2, ?_, ?_⟩⟩
  · rw [exec_deqEmpty hempty, State.commit_blk_self]
  · exact congrArg PortObs.deqFire (portAnswer_portObs ..)
  · exact congrArg PortObs.word (portAnswer_portObs ..)
  · exact portObs_events ..
  · rw [exec_consIdle, State.commit_blk_self]
  · exact congrArg PortObs.word (portAnswer_portObs ..)

/-- Settles O32: the synchroniser's registers and the other side do not depend on the offer; the write side is split on
whether it fires. -/
theorem producerTickRegisters : Obligations.ProducerTickRegisters := by
  refine fun a q wEn w => ⟨q.producerTick_wRsync2 wEn w, q.producerTick_wRsync1 wEn w, q.producerTick_rptrBin wEn w,
    q.producerTick_rptrGray wEn w, q.producerTick_rWsync1 wEn w, q.producerTick_rWsync2 wEn w, fun hfires => ?_,
    fun hfires => ?_⟩
  · rw [Queue.producerTick_of_enqFire w (Queue.enqFire_iff.2 hfires)]
    exact ⟨rfl, rfl, Memory.read_write q.mem (indexOf q.wptrBin) w⟩
  · rw [Queue.producerTick_of_not_enqFire w (mt Queue.enqFire_iff.1 hfires)]
    exact ⟨rfl, rfl, rfl⟩

/-- Settles O33: as for the producer tick, with the storage on the side that never moves. -/
theorem consumerTickRegisters : Obligations.ConsumerTickRegisters := by
  refine fun a q rEn w => ⟨q.consumerTick_rWsync2 rEn w, q.consumerTick_rWsync1 rEn w, q.consumerTick_mem rEn w,
    q.consumerTick_wptrBin rEn w, q.consumerTick_wptrGray rEn w, q.consumerTick_wRsync1 rEn w,
    q.consumerTick_wRsync2 rEn w, fun hfires => ?_, fun hfires => ?_⟩
  · rw [Queue.consumerTick_of_deqFire w (Queue.deqFire_iff.2 hfires)]
    exact ⟨rfl, rfl, rfl⟩
  · rw [Queue.consumerTick_of_not_deqFire w (mt Queue.deqFire_iff.1 hfires)]
    exact ⟨rfl, rfl, rfl⟩

end Sys2Proof.Machine
end

section
/-! PROOFS of family 41_bridge_fsm.md (R160 to R168, R170 to R179, R183): what the controller drives in each state, what each
of its transitions leaves in the state its row selects, and that idle ticks keep it idle. Each transition is first brought to
the state it commits; its outputs are then those of the controller's state. -/

namespace Sys2Proof.Machine

open Sys2Proof.Safety

/-! ### The outputs by state code (R170 to R179) -/

section Outputs

variable (g : ReadGating) (r t d sp : Bool) (x : Word)

/-- `in_ready` (R170) in the words of the rule. -/
theorem inReady_eq : inReady g sp = (sp || g == .ungated) := by
  cases g with
  | gated => exact (Bool.or_false sp).symm
  | ungated => exact (Bool.or_true sp).symm

variable {g r t d sp} {st : BitVec 2}

theorem readStrobe_iff : readStrobe g st r sp = true ↔ st = READING ∧ r = true ∧ inReady g sp = true := by
  simp [readStrobe, and_assoc]

theorem writeStrobe_iff : writeStrobe st t d = true ↔ st = WRITING ∧ t = true ∧ d = true := by
  simp [writeStrobe, and_assoc]

theorem outputEnable_iff : outputEnable st = true ↔ st = WRITING := beq_iff_eq

variable (g r t d sp)

theorem controllerPO_idle : controllerPO g IDLE r t d sp x = ⟨false, false, false, 0#2, 0#16, .none⟩ := rfl

theorem controllerPO_reading :
    controllerPO g READING r t d sp x = ⟨r && (sp || g == .ungated), false, false, 0#2, 0#16, .peripheral⟩ := by
  rw [← inReady_eq]
  rfl

theorem controllerPO_writing :
    controllerPO g WRITING r t d sp x = ⟨false, t && d, true, 0b11#2, x, .controller⟩ := rfl

end Outputs

/-! ### The signals of a P tick by state code -/

section Signals

variable {s : State}

theorem State.po_of_idle (hs : s.blk.fsm = IDLE) (r t : Bool) :
    s.po r t = ⟨false, false, false, 0#2, 0#16, .none⟩ := by
  rw [State.po, hs, controllerPO_idle]

theorem State.po_of_reading (hs : s.blk.fsm = READING) (r t : Bool) :
    s.po r t = ⟨r && (s.blk.inq.spaceAvailable || s.cfg.gating == .ungated), false, false, 0#2, 0#16, .peripheral⟩ := by
  rw [State.po, hs, controllerPO_reading, State.inHasSpace]

theorem State.po_of_writing (hs : s.blk.fsm = WRITING) (r t : Bool) :
    s.po r t = ⟨false, t && s.blk.outq.dataAvailable, true, 0b11#2, s.outWord, .controller⟩ := by
  rw [State.po, hs, controllerPO_writing, State.outHasData]

/-- Outside `READING` the controller offers the inbound queue nothing (R171, R173). -/
theorem State.wEn_of_ne_reading (hs : s.blk.fsm ≠ READING) (r : Bool) : s.wEn r = false :=
  Bool.eq_false_iff.2 fun h => hs (readStrobe_iff.1 h).1

/-- Outside `WRITING` the controller requests nothing from the outbound queue (R174, R178). -/
theorem State.rEn_of_ne_writing (hs : s.blk.fsm ≠ WRITING) (t : Bool) : s.rEn t = false :=
  Bool.eq_false_iff.2 fun h => hs (writeStrobe_iff.1 h).1

/-- In `READING` with `rxf = 1`, `INQ.w_en` is `in_ready` (R170, R173). -/
theorem State.wEn_of_reading (hs : s.blk.fsm = READING) :
    s.wEn true = (s.blk.inq.spaceAvailable || s.cfg.gating == .ungated) := by
  rw [← s.po_readStrobe true true, State.po_of_reading hs, Bool.true_and]

/-- A word is lost exactly where the gating does not hold it back and the queue has no space (R164, R285). -/
theorem State.drops_of_reading (hs : s.blk.fsm = READING) :
    s.drops true = true ↔ s.cfg.gating = .ungated ∧ s.blk.inq.spaceAvailable = false := by
  rw [State.drops, State.wEn_of_reading hs, State.inHasSpace]
  cases s.blk.inq.spaceAvailable <;> simp

/-- Where the queue has space `in_ready` holds in both gatings, so the enqueue fires exactly there (R164). -/
theorem State.enqFire_of_reading (hs : s.blk.fsm = READING) :
    s.blk.inq.enqFire (s.wEn true) = s.blk.inq.spaceAvailable := by
  rw [Queue.enqFire, State.wEn_of_reading hs, Bool.and_comm]
  exact inf_sup_self

end Signals

/-! ### The transitions, in the states that select them (R160 to R168) -/

section Transitions

variable {s : State} {r t d sp : Bool}

/-- With a defined state code a key that matches the row's tested bits performs the row's transition. -/
theorem State.performRow_of_defined {mask value : BitVec 6} {u : State} (hs : s.blk.fsm ≠ RESERVED)
    (hkey : keySelects mask value (s.key r t) = true) : s.performRow mask value (s.key r t) u = .next u :=
  State.performRow_selected (mt nextFsm_key_none.1 hs) hkey

theorem State.ne_reserved_of_idle (hs : s.blk.fsm = IDLE) : s.blk.fsm ≠ RESERVED := hs ▸ by decide
theorem State.ne_reserved_of_reading (hs : s.blk.fsm = READING) : s.blk.fsm ≠ RESERVED := hs ▸ by decide
theorem State.ne_reserved_of_writing (hs : s.blk.fsm = WRITING) : s.blk.fsm ≠ RESERVED := hs ▸ by decide

theorem exec_fsmIdleRead (hs : s.blk.fsm = IDLE) :
    exec (.fsmIdleRead t d sp) s = .next (s.transition true t READING) :=
  s.performRow_of_defined (s.ne_reserved_of_idle hs) ((key_idleRead s t).trans (beq_iff_eq.2 hs))

theorem exec_fsmIdleWrite (hs : s.blk.fsm = IDLE) (hdata : s.blk.outq.dataAvailable = true) :
    exec (.fsmIdleWrite sp) s = .next (s.transition false true WRITING) :=
  s.performRow_of_defined (s.ne_reserved_of_idle hs) (by rw [key_idleWrite, hs, hdata]; rfl)

theorem exec_fsmIdleHoldT0 (hs : s.blk.fsm = IDLE) :
    exec (.fsmIdleHoldT0 d sp) s = .next (s.transition false false IDLE) :=
  s.performRow_of_defined (s.ne_reserved_of_idle hs) ((key_idleHoldT0 s).trans (beq_iff_eq.2 hs))

theorem exec_fsmIdleHoldD0 (hs : s.blk.fsm = IDLE) (hdata : s.blk.outq.dataAvailable = false) :
    exec (.fsmIdleHoldD0 sp) s = .next (s.transition false true IDLE) :=
  s.performRow_of_defined (s.ne_reserved_of_idle hs) (by rw [key_idleHoldD0, hs, hdata]; rfl)

theorem exec_fsmReadCont (hs : s.blk.fsm = READING) (w : Word) :
    exec (.fsmReadCont t d sp w) s = .next (s.readWord t w) :=
  s.performRow_of_defined (s.ne_reserved_of_reading hs) ((key_readCont s t).trans (beq_iff_eq.2 hs))

theorem exec_fsmReadExit (hs : s.blk.fsm = READING) :
    exec (.fsmReadExit t d sp) s = .next (s.transition false t IDLE) :=
  s.performRow_of_defined (s.ne_reserved_of_reading hs) ((key_readExit s t).trans (beq_iff_eq.2 hs))

theorem exec_fsmWriteCont (hs : s.blk.fsm = WRITING) (hdata : s.blk.outq.dataAvailable = true) :
    exec (.fsmWriteCont r sp) s = .next (s.writeWord r) :=
  s.performRow_of_defined (s.ne_reserved_of_writing hs) (by rw [key_writeCont, hs, hdata]; rfl)

theorem exec_fsmWriteExitT0 (hs : s.blk.fsm = WRITING) :
    exec (.fsmWriteExitT0 r d sp) s = .next (s.transition r false IDLE) :=
  s.performRow_of_defined (s.ne_reserved_of_writing hs) ((key_writeExitT0 s r).trans (beq_iff_eq.2 hs))

theorem exec_fsmWriteExitD0 (hs : s.blk.fsm = WRITING) (hdata : s.blk.outq.dataAvailable = false) :
    exec (.fsmWriteExitD0 r sp) s = .next (s.transition r true IDLE) :=
  s.performRow_of_defined (s.ne_reserved_of_writing hs) (by rw [key_writeExitD0, hs, hdata]; rfl)

/-! ### What a transition commits -/

/-- Writing the state code a block already has keeps the block. -/
theorem Block.setFsm_self {a : Nat} {b : Block a} {st : BitVec 2} (h : b.fsm = st) : { b with fsm := st } = b := by
  rw [← h]

/-- A transition to the present state keeps the block. -/
theorem State.transition_self {st : BitVec 2} (hs : s.blk.fsm = st) :
    s.transition r t st = s.commit s.blk (s.controllerObs r t) := by
  rw [State.transition, Block.setFsm_self hs]

/-- The words a read in `READING` adds to the record of lost words (R164, R285). -/
theorem State.dropped_readWord_of_reading (hs : s.blk.fsm = READING) (w : Word) :
    (s.readWord t w).dropped =
      if s.cfg.gating = .ungated ∧ s.blk.inq.spaceAvailable = false then s.dropped ++ [w] else s.dropped := by
  rw [State.readWord, State.drop_dropped, State.commit_dropped, if_congr (State.drops_of_reading hs) rfl rfl]
  split
  · rfl
  · exact List.append_nil _

/-- In `READING` a word read changes the inbound queue and the record of lost words alone (R164). -/
theorem State.readWord_of_reading (hs : s.blk.fsm = READING) (w : Word) :
    s.readWord t w =
      { s with
        blk := { s.blk with inq := s.blk.inq.producerTick (s.blk.inq.spaceAvailable || s.cfg.gating == .ungated) w }
        dropped := if s.cfg.gating = .ungated ∧ s.blk.inq.spaceAvailable = false then s.dropped ++ [w] else s.dropped
        obs := (s.readWord t w).obs, looks := s.looks + 2 } := by
  rw [← State.wEn_of_reading hs, ← State.dropped_readWord_of_reading (t := t) hs,
    ← Block.setFsm_self (b := { s.blk with inq := s.blk.inq.producerTick (s.wEn true) w }) hs]
  rfl

/-- In `WRITING` a word written changes the outbound queue alone (R166). -/
theorem State.writeWord_of_writing (hs : s.blk.fsm = WRITING) :
    s.writeWord r =
      { s with
        blk := { s.blk with outq := s.blk.outq.consumerTick true s.outWord }
        obs := (s.writeWord r).obs, looks := s.looks + 2 } := by
  rw [← Block.setFsm_self (b := { s.blk with outq := s.blk.outq.consumerTick true s.outWord }) hs]
  rfl

end Transitions

/-! ### P ticks (R200) in `IDLE` with `rxf = txe = 0` (R162) -/

section IdleTicks

variable {s : State}

/-- With a defined state code a P tick goes to the next state of the policy and ticks both queues. -/
theorem State.peripheralTick_of_defined (hs : s.blk.fsm ≠ RESERVED) (v : PI) :
    s.peripheralTick v = .next ((s.commit
      { fsm := policy s.blk.fsm v.rxf v.txe s.outHasData
        inq := s.blk.inq.producerTick (s.wEn v.rxf) v.dataIn
        outq := s.blk.outq.consumerTick (s.rEn v.txe) s.outWord } (s.peripheralObs v)).drop (s.lost v)) := by
  simp only [State.peripheralTick, State.key, nextFsm_fsmKey hs]

/-- Outside `READING` no P tick loses a word. -/
theorem State.lost_of_ne_reading (hs : s.blk.fsm ≠ READING) (v : PI) : s.lost v = [] := by
  rw [State.lost, State.drops, State.wEn_of_ne_reading hs, Bool.false_and, if_neg Bool.false_ne_true]

theorem State.drop_nil (s : State) : s.drop [] = s := by rw [State.drop, List.append_nil]

/-- What a P tick with `rxf = txe = 0` leaves of an idle block: only the two synchronisers of the P side move. -/
def Block.idleTick {a : Nat} (b : Block a) : Block a where
  fsm  := IDLE
  inq  := b.inq.shiftR2W b.inq.rptrGray b.inq.ghost.rc
  outq := b.outq.shiftW2R b.outq.wptrGray b.outq.ghost.wc

theorem exec_tickP_of_idle (hs : s.blk.fsm = IDLE) (x : Word) :
    exec (.tickP ⟨false, false, x⟩) s =
      .next (s.commit s.blk.idleTick (s.peripheralObs ⟨false, false, x⟩)) := by
  have hreading : s.blk.fsm ≠ READING := hs ▸ by decide
  have hwriting : s.blk.fsm ≠ WRITING := hs ▸ by decide
  calc
    s.peripheralTick ⟨false, false, x⟩ = _ := s.peripheralTick_of_defined (s.ne_reserved_of_idle hs) _
    _ = .next (s.commit s.blk.idleTick (s.peripheralObs ⟨false, false, x⟩)) := by
      rw [State.lost_of_ne_reading hreading, State.drop_nil, State.wEn_of_ne_reading hreading,
        State.rEn_of_ne_writing hwriting, hs]
      rfl

/-- A run of P ticks is extended at its end. -/
theorem ticksP_succ_of_next {v : PI} {k : Nat} {s t : State} (h : ticksP v k s = .next t) :
    ticksP v (k + 1) s = exec (.tickP v) t := by
  induction k generalizing s with
  | zero =>
    cases h
    rw [ticksP]
    split
    all_goals next hexec => exact hexec.symm
  | succ k ih =>
    rw [ticksP] at h ⊢
    split at h
    · exact ih h
    all_goals cases h

end IdleTicks

/-! ### The statements about the controller -/

/-- Settles O16: each strobe is an equation on the state code. -/
theorem strobesRespectBusOwnership : Obligations.StrobesRespectBusOwnership := by
  intro g st r t d sp x v
  have hread (h : v.readStrobe = true) : st = READING := (readStrobe_iff.1 h).1
  have hwrite (h : v.writeStrobe = true) : st = WRITING := (writeStrobe_iff.1 h).1
  have henable : v.outputEnable = true ↔ st = WRITING := outputEnable_iff
  refine ⟨hread, ?_, fun h => henable.2 (hwrite h), ?_⟩
  · rintro (h | h)
    · exact henable.1 h
    · exact hwrite h
  · rintro ⟨hr, he⟩
    exact absurd ((hread hr).symm.trans (henable.1 he)) (by decide)

/-- Settles O17, by state code. -/
theorem outputsPerState : Obligations.OutputsPerState :=
  fun g r t d sp x =>
    ⟨controllerPO_idle g r t d sp x, controllerPO_reading g r t d sp x, controllerPO_writing g r t d sp x⟩

/-- Settles O18. -/
theorem idleReadEntersReading : Obligations.IdleReadEntersReading := by
  intro t d sp s hs
  refine ⟨s.controllerObs true t, s.looks + 2, exec_fsmIdleRead hs, ?_⟩
  exact congrArg some (s.po_of_idle hs true t)

/-- Settles O19. -/
theorem idleWriteEntersWriting : Obligations.IdleWriteEntersWriting := by
  intro sp s hs hdata
  refine ⟨s.controllerObs false true, s.looks + 2, exec_fsmIdleWrite hs hdata, ?_⟩
  exact congrArg some (s.po_of_idle hs false true)

/-- Settles O20: both operations are transitions from `IDLE` to itself. -/
theorem idleHoldsKeepIdle : Obligations.IdleHoldsKeepIdle := by
  refine ⟨fun d sp s hs => ⟨s.controllerObs false false, s.looks + 2, ?_, ?_⟩,
    fun sp s hs hdata => ⟨s.controllerObs false true, s.looks + 2, ?_, ?_⟩⟩
  · exact (exec_fsmIdleHoldT0 hs).trans (congrArg _ (State.transition_self hs))
  · exact congrArg some (s.po_of_idle hs false false)
  · exact (exec_fsmIdleHoldD0 hs hdata).trans (congrArg _ (State.transition_self hs))
  · exact congrArg some (s.po_of_idle hs false true)

/-- Settles O21: `w_en`, the loss and the port's answer are all given by the space and the gating. -/
theorem readContOffersTheWord : Obligations.ReadContOffersTheWord := by
  intro t d sp w s hs ready
  refine ⟨(s.readWord t w).obs, s.looks + 2, ?_, ?_, ?_⟩
  · rw [exec_fsmReadCont hs]
    exact congrArg _ (State.readWord_of_reading hs w)
  · exact congrArg some (s.po_of_reading hs true t)
  · exact State.enqFire_of_reading hs

/-- Settles O22. -/
theorem readExitReturnsToIdle : Obligations.ReadExitReturnsToIdle := by
  intro t d sp s hs
  refine ⟨s.controllerObs false t, s.looks + 2, exec_fsmReadExit hs, ?_⟩
  exact congrArg some (s.po_of_reading hs false t)

/-- Settles O23: while data is available the word on the consumer port is the head word. -/
theorem writeContHandsOverTheHead : Obligations.WriteContHandsOverTheHead := by
  intro r sp s hs hdata word
  have hword : s.outWord = word := State.outWord_eq_headWord hdata
  have hfire : s.blk.outq.deqFire true = true := hdata
  refine ⟨(s.writeWord r).obs, s.looks + 2, ?_, ?_, hfire, ?_⟩
  · rw [exec_fsmWriteCont hs hdata, ← hword]
    exact congrArg _ (State.writeWord_of_writing hs)
  · exact congrArg some ((s.po_of_writing hs r true).trans (by rw [hdata, hword]; rfl))
  · exact (if_pos hfire).trans (congrArg some hword)

/-- Settles O24: the word on the consumer port is driven but not strobed; it is the head word while data is available. -/
theorem writeExitsReturnToIdle : Obligations.WriteExitsReturnToIdle := by
  refine ⟨fun r d sp s hs => ⟨s.controllerObs r false, s.looks + 2, s.outWord, exec_fsmWriteExitT0 hs, ?_,
      State.outWord_eq_headWord⟩,
    fun r sp s hs hdata => ⟨s.controllerObs r true, s.looks + 2, s.outWord, exec_fsmWriteExitD0 hs hdata, ?_⟩⟩
  · exact congrArg some (s.po_of_writing hs r false)
  · exact congrArg some ((s.po_of_writing hs r true).trans (by rw [hdata]; rfl))

/-- Settles O50, by induction on the number of ticks, the last tick taken off: an idle tick shifts two synchronisers, keeps
`IDLE` and drives the outputs of `IDLE`. -/
theorem idleIsIdempotent : Obligations.IdleIsIdempotent := by
  intro k x s hs
  induction k with
  | zero => exact ⟨s.blk, s.obs, s.looks, rfl, hs, rfl, rfl, rfl, rfl, rfl, nofun⟩
  | succ k ih =>
    obtain ⟨b, o, n, hrun, hfsm, hwBin, hwGray, hmem, hrBin, hrGray, -⟩ := ih
    refine ⟨b.idleTick, State.peripheralObs { s with blk := b, obs := o, looks := n } ⟨false, false, x⟩, n + 2,
      (ticksP_succ_of_next hrun).trans (exec_tickP_of_idle hfsm x), rfl, hwBin, hwGray, hmem, hrBin, hrGray, fun _ => ?_⟩
    exact congrArg some (State.po_of_idle hfsm false false)

end Sys2Proof.Machine
end

section
/-! PROOFS of family 42_harness.md (R200 to R207, R210): what a step of the whole block and each call of the host answer. A P
tick, an H tick and both at once are first brought to the state they commit, with the words they move read from the storage.
A P tick is then compared with the row its key decodes to, and a coincident edge with the two lone ticks, register by
register. -/

namespace Sys2Proof.Machine

open Sys2Proof.Safety

/-! ### The queue sides of a tick -/

section Queue

variable {a : Nat} (q : Queue a) (wEn rEn : Bool) (w out : Word) (dW dR : Bool)

/-- Where no data is available no dequeue fires (R121). -/
theorem Queue.deqFire_of_not_dataAvailable {q : Queue a} (h : q.dataAvailable = false) : q.deqFire rEn = false := by
  rw [Queue.deqFire, h, Bool.and_false]

/-- A word that no dequeue takes has no effect (R136). -/
theorem Queue.consumerOp_congr {q : Queue a} {out out' : Word} (h : q.dataAvailable = true → out = out') :
    q.consumerOp rEn out = q.consumerOp rEn out' := by
  cases hdata : q.dataAvailable with
  | true => rw [h hdata]
  | false => simp only [Queue.consumerOp, Queue.deqFire_of_not_dataAvailable rEn hdata, Bool.false_eq_true, if_false]

/-- The free word of a look that finds no data is never taken (log entry 9). -/
theorem Queue.consumerTick_rData (look era : Nat) (id : QueueId) :
    q.consumerTick rEn (q.rData look era id) = q.consumerTick rEn (q.headWord era id) := by
  rw [Queue.consumerTick, Queue.consumerTick, Queue.consumerOp_congr rEn (q.rData_eq_headWord look era id)]

theorem Queue.bothTick_rData (look era : Nat) (id : QueueId) :
    q.bothTick wEn w rEn (q.rData look era id) dW dR = q.bothTick wEn w rEn (q.headWord era id) dW dR := by
  have hword (h : (q.producerOp wEn w).dataAvailable = true) : q.rData look era id = q.headWord era id :=
    Queue.rData_eq_headWord _ _ _ ((q.producerOp_dataAvailable wEn w).symm.trans h)
  rw [Queue.bothTick, Queue.bothTick, Queue.consumerOp_congr rEn hword]

/-- The consumer port decides by its own side's registers, which the producer's operation leaves alone (R140). -/
@[simp] theorem Queue.producerOp_deqFire : (q.producerOp wEn w).deqFire rEn = q.deqFire rEn := by
  rw [Queue.deqFire, Queue.producerOp_dataAvailable, Queue.deqFire]

/-- The read pointer a coincident edge leaves is the consumer's alone. -/
theorem Queue.consumerOp_producerOp_rptrBin :
    ((q.producerOp wEn w).consumerOp rEn out).rptrBin = (q.consumerTick rEn out).rptrBin := by
  simp only [Queue.consumerTick, Queue.consumerOp, Queue.producerOp_deqFire, Queue.shiftW2R_rptrBin]
  split <;> simp

theorem Queue.consumerOp_producerOp_rptrGray :
    ((q.producerOp wEn w).consumerOp rEn out).rptrGray = (q.consumerTick rEn out).rptrGray := by
  simp only [Queue.consumerTick, Queue.consumerOp, Queue.producerOp_deqFire, Queue.shiftW2R_rptrGray]
  split <;> simp

/-- A coincident edge leaves each register as the lone tick of its side does, but for the two first synchroniser stages,
which are drawn (R140, R202). -/
theorem hardware_bothTick_eq :
    hardware (q.bothTick wEn w rEn out dW dR) =
      hardware { q.producerTick wEn w with
        rptrBin := (q.consumerTick rEn out).rptrBin, rptrGray := (q.consumerTick rEn out).rptrGray
        rWsync2 := (q.consumerTick rEn out).rWsync2
        wRsync1 := if dW then (q.consumerTick rEn out).rptrGray else q.rptrGray
        rWsync1 := if dR then (q.producerTick wEn w).wptrGray else q.wptrGray } := by
  simp only [hardware, Queue.bothTick, Queue.producerTick, Queue.shiftR2W, Queue.shiftW2R,
    Queue.consumerOp_producerOp_rptrBin, Queue.consumerOp_producerOp_rptrGray, Queue.consumerTick_rWsync2,
    Queue.consumerOp_wptrBin, Queue.consumerOp_wptrGray, Queue.consumerOp_wRsync1, Queue.consumerOp_rWsync1,
    Queue.consumerOp_mem, Queue.producerOp_rWsync1]

end Queue

/-! ### A quiet queue (R210) -/

section Quiet

variable {a : Nat} {q : Queue a}

/-- The settled view of the write pointer is the read pointer. -/
theorem Queue.dataAvailable_of_quiet (h : QueueQuiet q) : q.dataAvailable = false := by
  have hlevel : q.rLevel = 0 := by
    rw [Queue.rLevel, h.rWsync2, h.wptr, gray2bin_bin2gray, h.empty, BitVec.sub_self]
    rfl
  rw [Queue.dataAvailable, Queue.empty, hlevel, beq_self_eq_true, Bool.not_true]

/-- The shift of settled synchronisers moves nothing. -/
theorem hardware_shiftR2W_of_quiet (h : QueueQuiet q) (n : Nat) : hardware (q.shiftR2W q.rptrGray n) = hardware q := by
  simp only [hardware, Queue.shiftR2W, h.wRsync1, h.wRsync2]

theorem hardware_shiftW2R_of_quiet (h : QueueQuiet q) (n : Nat) : hardware (q.shiftW2R q.wptrGray n) = hardware q := by
  simp only [hardware, Queue.shiftW2R, h.rWsync1, h.rWsync2]

variable (w out : Word) (rEn dW dR : Bool)

theorem hardware_producerTick_of_quiet (h : QueueQuiet q) : hardware (q.producerTick false w) = hardware q :=
  hardware_shiftR2W_of_quiet h q.ghost.rc

theorem hardware_consumerTick_of_quiet (h : QueueQuiet q) : hardware (q.consumerTick rEn out) = hardware q := by
  have hfire := Queue.deqFire_of_not_dataAvailable rEn (Queue.dataAvailable_of_quiet h)
  rw [Queue.consumerTick_of_not_deqFire _ (Bool.eq_false_iff.1 hfire), hardware_shiftW2R_of_quiet h]

/-- No port moves a pointer, so a draw before the edge and one after it are the same. -/
theorem hardware_bothTick_of_quiet (h : QueueQuiet q) :
    hardware (q.bothTick false w rEn out dW dR) = hardware q := by
  have hfire := Queue.deqFire_of_not_dataAvailable rEn (Queue.dataAvailable_of_quiet h)
  have hports : (q.producerOp false w).consumerOp rEn out = q := if_neg (Bool.eq_false_iff.1 hfire)
  rw [Queue.bothTick, hports]
  simp only [ite_self, hardware, Queue.shiftR2W, Queue.shiftW2R, h.wRsync1, h.wRsync2, h.rWsync1, h.rWsync2]

end Quiet

/-! ### The ticks of the block (R200 to R202) -/

section Ticks

variable (s : State) (v : PI) (x : HI)

/-- `INQ.w_en` (R173) in the words of the rules. -/
theorem State.wEn_eq (r : Bool) :
    s.wEn r = (s.blk.fsm == READING && r && (s.blk.inq.spaceAvailable || s.cfg.gating == .ungated)) := by
  rw [← inReady_eq]
  rfl

/-- Where the controller offers no word, `INQ.w_en` is 0 (R173, R179). -/
theorem State.wEn_of_not_inValid {s : State} {r : Bool} (h : inValid s.blk.fsm r = false) : s.wEn r = false := by
  rw [State.wEn, inqWEn, h, Bool.false_and]

/-- A P tick loses the word that is offered while the inbound queue has no space, and no other (R285). -/
theorem State.dropped_append_lost :
    s.dropped ++ s.lost v =
      if s.wEn v.rxf = true ∧ s.blk.inq.spaceAvailable = false then s.dropped ++ [v.dataIn] else s.dropped := by
  have hdrops : s.drops v.rxf = true ↔ s.wEn v.rxf = true ∧ s.blk.inq.spaceAvailable = false := by
    rw [State.drops, State.inHasSpace, Bool.and_eq_true_iff, Bool.not_eq_true']
  rw [State.lost, if_congr hdrops rfl rfl]
  split
  · rfl
  · exact List.append_nil _

theorem State.ne_reserved_of_fsmDefined {s : State} (h : FsmDefined s) : s.blk.fsm ≠ RESERVED := by
  obtain hs | hs | hs := h
  · exact s.ne_reserved_of_idle hs
  · exact s.ne_reserved_of_reading hs
  · exact s.ne_reserved_of_writing hs

/-- With nothing to read and nothing to write the controller stays idle (R162, R163). -/
theorem policy_idle_of_nothing (t : Bool) : policy IDLE false t false = IDLE := by cases t <;> rfl

/-- What a P tick leaves of the block (R200): the word taken from the outbound queue is its head entry. -/
def State.peripheralBlock : Block s.cfg.a where
  fsm  := policy s.blk.fsm v.rxf v.txe s.blk.outq.dataAvailable
  inq  := s.blk.inq.producerTick (s.wEn v.rxf) v.dataIn
  outq := s.blk.outq.consumerTick (s.rEn v.txe) (s.blk.outq.headWord s.era .outq)

/-- What an H tick leaves of the block (R201): the word taken from the inbound queue is its head entry. -/
def State.hostBlock : Block s.cfg.a :=
  { s.blk with
    outq := s.blk.outq.producerTick x.submitValid x.submitWord
    inq  := s.blk.inq.consumerTick x.pollReady (s.blk.inq.headWord s.era .inq) }

/-- What a coincident edge leaves of the block (R202). -/
def State.coincidentBlock (d : Draws) : Block s.cfg.a where
  fsm  := policy s.blk.fsm v.rxf v.txe s.blk.outq.dataAvailable
  inq  := s.blk.inq.bothTick (s.wEn v.rxf) v.dataIn x.pollReady (s.blk.inq.headWord s.era .inq) d.d1 d.d4
  outq := s.blk.outq.bothTick x.submitValid x.submitWord (s.rEn v.txe) (s.blk.outq.headWord s.era .outq) d.d3 d.d2

/-- `TICK_P` with a defined state code (R200). -/
theorem exec_tickP {s : State} (hs : FsmDefined s) :
    exec (.tickP v) s = .next ((s.commit (s.peripheralBlock v) (s.peripheralObs v)).drop (s.lost v)) := by
  have hword : s.blk.outq.consumerTick (s.rEn v.txe) s.outWord = (s.peripheralBlock v).outq :=
    s.blk.outq.consumerTick_rData ..
  calc exec (.tickP v) s = s.peripheralTick v := rfl
    _ = _ := s.peripheralTick_of_defined (s.ne_reserved_of_fsmDefined hs) v
    _ = _ := by
      rw [hword]
      rfl

/-- `TICK_H` (R201). -/
theorem exec_tickH : exec (.tickH x) s = .next (s.commit (s.hostBlock x) (s.hostObs x)) := by
  have hword : s.blk.inq.consumerTick x.pollReady s.inWord = (s.hostBlock x).inq := s.blk.inq.consumerTick_rData ..
  calc exec (.tickH x) s = .next (s.hostTick x) := rfl
    _ = _ := by
      rw [State.hostTick, hword]
      rfl

/-- `TICK_PH` with a defined state code (R202). -/
theorem exec_tickPH {s : State} (hs : FsmDefined s) (d : Draws) :
    exec (.tickPH v x d) s =
      .next ((s.commit (s.coincidentBlock v x d) (s.coincidentObs v x)).drop (s.lost v)) := by
  have hin : s.blk.inq.bothTick (s.wEn v.rxf) v.dataIn x.pollReady s.inWord d.d1 d.d4 =
      (s.coincidentBlock v x d).inq := s.blk.inq.bothTick_rData ..
  have hout : s.blk.outq.bothTick x.submitValid x.submitWord (s.rEn v.txe) s.outWord d.d3 d.d2 =
      (s.coincidentBlock v x d).outq := s.blk.outq.bothTick_rData ..
  calc exec (.tickPH v x d) s = s.coincidentTick v x d := rfl
    _ = _ := by
      simp only [State.coincidentTick, State.key, nextFsm_fsmKey (s.ne_reserved_of_fsmDefined hs), hin, hout]
      rfl

/-- `poll()`'s result is the head word where data is available (R205). -/
theorem State.pollResult_ho :
    (s.ho x).pollResult = if s.blk.inq.dataAvailable then some (s.blk.inq.headWord s.era .inq) else none := by
  change (if s.blk.inq.dataAvailable then some s.inWord else none) = _
  split
  case isTrue hdata => rw [State.inWord_eq_headWord hdata]
  case isFalse => rfl

end Ticks

/-! ### The transition a P tick performs (R100, R200) -/

section Selected

/-- The row of key `FSM` that a defined state code and the four inputs select (R100), with the word it may carry. -/
def selectedTransition (st : BitVec 2) (r t d sp : Bool) (w : Word) : Instr :=
  if st = READING then (if r then .fsmReadCont t d sp w else .fsmReadExit t d sp)
  else if st = WRITING then
    (if t then (if d then .fsmWriteCont r sp else .fsmWriteExitD0 r sp) else .fsmWriteExitT0 r d sp)
  else if r then .fsmIdleRead t d sp
  else (if t then (if d then .fsmIdleWrite sp else .fsmIdleHoldD0 sp) else .fsmIdleHoldT0 d sp)

/-- The selected row's word holds the key itself, and the data word only where the row reads one. -/
theorem encodeFields_selectedTransition {st : BitVec 2} (hst : st ≠ RESERVED) (r t d sp : Bool) (w : Word) :
    encodeFields (selectedTransition st r t d sp w) =
      { Fields.bare portFsm (0#2 ++ fsmKey st r t d sp) with dataIn := if st == READING && r then w else 0#16 } := by
  have hkey : (0#2 ++ fsmKey st r t d sp : BitVec 8) = key6 st r t d sp := by
    revert st r t d sp; decide
  rw [hkey]
  obtain rfl | rfl | rfl | rfl := stateCode_cases st
  · cases r <;> cases t <;> cases d <;> rfl
  · cases r <;> rfl
  · cases t <;> cases d <;> rfl
  · exact absurd rfl hst

theorem wellFormed_selectedTransition (st : BitVec 2) (r t d sp : Bool) (w : Word) :
    (selectedTransition st r t d sp w).wellFormed = true := by
  unfold selectedTransition
  split_ifs <;> rfl

variable (s : State) (v : PI)

/-- What the selected transition by itself leaves of the block: the queue a word crosses ticks, the other one stays. -/
def State.transitionBlock : Block s.cfg.a where
  fsm  := policy s.blk.fsm v.rxf v.txe s.blk.outq.dataAvailable
  inq  := if inValid s.blk.fsm v.rxf then s.blk.inq.producerTick (s.wEn v.rxf) v.dataIn else s.blk.inq
  outq := if s.rEn v.txe then s.blk.outq.consumerTick true s.outWord else s.blk.outq

/-- An outcome is that of the transition a P tick selects: its block, its `PO` vector and its losses. -/
def State.IsTransitionOf (r : Result) : Prop :=
  ∃ o : Obs s.cfg.a, o.po = some (s.po v.rxf v.txe) ∧ r = .next ((s.commit (s.transitionBlock v) o).drop (s.lost v))

variable {s v}

/-- Where no word crosses, the transition moves the state code alone. -/
theorem State.isTransitionOf_transition {next : BitVec 2} (hread : inValid s.blk.fsm v.rxf = false)
    (hwrite : s.rEn v.txe = false) (hnext : policy s.blk.fsm v.rxf v.txe s.blk.outq.dataAvailable = next) :
    s.IsTransitionOf v (.next (s.transition v.rxf v.txe next)) := by
  have hlost : s.lost v = [] := by
    rw [State.lost, State.drops, State.wEn_of_not_inValid hread, Bool.false_and, if_neg Bool.false_ne_true]
  refine ⟨s.controllerObs v.rxf v.txe, rfl, ?_⟩
  simp only [State.transition, State.transitionBlock, hlost, State.drop_nil, hread, hwrite, hnext, Bool.false_eq_true,
    if_false]

/-- In `READING` a word offered goes to the inbound queue (R164). -/
theorem State.isTransitionOf_readWord (hs : s.blk.fsm = READING) (hr : v.rxf = true) :
    s.IsTransitionOf v (.next (s.readWord v.txe v.dataIn)) := by
  have hblock : s.transitionBlock v =
      { s.blk with fsm := READING, inq := s.blk.inq.producerTick (s.wEn true) v.dataIn } := by
    have hwrite : s.rEn v.txe = false := State.rEn_of_ne_writing (hs ▸ by decide) v.txe
    rw [State.transitionBlock, hwrite, hs, hr]
    rfl
  have hlost : s.lost v = if s.drops true then [v.dataIn] else [] := by rw [State.lost, hr]
  refine ⟨(s.readWord v.txe v.dataIn).obs, ?_, ?_⟩
  · rw [hr]
    rfl
  · rw [hblock, hlost]
    rfl

/-- In `WRITING` the head word is taken from the outbound queue (R166). -/
theorem State.isTransitionOf_writeWord (hs : s.blk.fsm = WRITING) (ht : v.txe = true)
    (hdata : s.blk.outq.dataAvailable = true) : s.IsTransitionOf v (.next (s.writeWord v.rxf)) := by
  have hblock : s.transitionBlock v =
      { s.blk with fsm := WRITING, outq := s.blk.outq.consumerTick true s.outWord } := by
    have hwrite : s.rEn true = true := writeStrobe_iff.2 ⟨hs, rfl, hdata⟩
    rw [State.transitionBlock, ht, hwrite, hdata, hs]
    rfl
  refine ⟨(s.writeWord v.rxf).obs, ?_, ?_⟩
  · rw [ht]
    rfl
  · rw [hblock, State.lost_of_ne_reading (hs ▸ by decide), State.drop_nil]
    rfl

/-- In `IDLE` no word crosses (R160 to R163). -/
theorem State.isTransitionOf_of_idle {next : BitVec 2} (hs : s.blk.fsm = IDLE)
    (hnext : policy IDLE v.rxf v.txe s.blk.outq.dataAvailable = next) :
    s.IsTransitionOf v (.next (s.transition v.rxf v.txe next)) := by
  refine State.isTransitionOf_transition ?_ (State.rEn_of_ne_writing (hs ▸ by decide) _) (hs ▸ hnext)
  rw [hs]
  rfl

/-- In `WRITING` without a word to hand over the controller returns to `IDLE` (R167, R168). -/
theorem State.isTransitionOf_of_writing (hs : s.blk.fsm = WRITING)
    (hidle : (v.txe && s.blk.outq.dataAvailable) = false) :
    s.IsTransitionOf v (.next (s.transition v.rxf v.txe IDLE)) := by
  refine State.isTransitionOf_transition ?_ ?_ ?_
  · rw [hs]
    rfl
  · rw [State.rEn, outqREn, writeStrobe, State.outHasData, Bool.and_assoc, hidle, Bool.and_false]
  · rw [hs]
    simp only [policy, hidle]
    rfl

/-- Key by key, the selected row performs the transition of the P tick (R100, R160 to R168). -/
theorem exec_selectedTransition (hs : FsmDefined s) (sp : Bool) :
    s.IsTransitionOf v
      (exec (selectedTransition s.blk.fsm v.rxf v.txe s.blk.outq.dataAvailable sp v.dataIn) s) := by
  obtain ⟨r, t, w⟩ := v
  obtain hs | hs | hs := hs
  · rw [hs]
    cases r with
    | true => exact exec_fsmIdleRead hs ▸ State.isTransitionOf_of_idle hs rfl
    | false =>
      cases t with
      | false => exact exec_fsmIdleHoldT0 hs ▸ State.isTransitionOf_of_idle hs rfl
      | true =>
        cases hdata : s.blk.outq.dataAvailable with
        | true => exact exec_fsmIdleWrite hs hdata ▸ State.isTransitionOf_of_idle hs (by rw [hdata]; rfl)
        | false => exact exec_fsmIdleHoldD0 hs hdata ▸ State.isTransitionOf_of_idle hs (by rw [hdata]; rfl)
  · rw [hs]
    cases r with
    | true => exact exec_fsmReadCont hs w ▸ State.isTransitionOf_readWord hs rfl
    | false =>
      refine exec_fsmReadExit hs ▸ State.isTransitionOf_transition (Bool.and_false _) ?_ (by rw [hs]; rfl)
      exact State.rEn_of_ne_writing (hs ▸ by decide) t
  · rw [hs]
    cases t with
    | false => exact exec_fsmWriteExitT0 hs ▸ State.isTransitionOf_of_writing hs rfl
    | true =>
      cases hdata : s.blk.outq.dataAvailable with
      | true => exact exec_fsmWriteCont hs hdata ▸ State.isTransitionOf_writeWord hs rfl hdata
      | false => exact exec_fsmWriteExitD0 hs hdata ▸ State.isTransitionOf_of_writing hs (by rw [hdata]; rfl)

/-- The tick's inbound side is the transition's, or ticks with nothing offered. -/
theorem State.peripheralBlock_inq :
    (s.peripheralBlock v).inq =
      if inValid s.blk.fsm v.rxf then (s.transitionBlock v).inq else (s.transitionBlock v).inq.producerTick false 0 := by
  cases hread : inValid s.blk.fsm v.rxf with
  | true => simp only [State.peripheralBlock, State.transitionBlock, hread, if_true]
  | false =>
    simp only [State.peripheralBlock, State.transitionBlock, hread, State.wEn_of_not_inValid hread, Bool.false_eq_true,
      if_false]
    rfl

/-- The tick's outbound side is the transition's, or ticks with nothing requested. -/
theorem State.peripheralBlock_outq :
    (s.peripheralBlock v).outq =
      if s.rEn v.txe then (s.transitionBlock v).outq else (s.transitionBlock v).outq.consumerTick false 0 := by
  cases hwrite : s.rEn v.txe with
  | true =>
    simp only [State.peripheralBlock, State.transitionBlock, hwrite, if_true]
    exact (s.blk.outq.consumerTick_rData ..).symm
  | false =>
    simp only [State.peripheralBlock, State.transitionBlock, hwrite, Bool.false_eq_true, if_false]
    rfl

end Selected

/-! ### The statements about the step, the calls and the ticks -/

/-- Settles O40: the key's word is the encoding of the row the key selects, and that row and the tick are both given by the
pre-edge state. -/
theorem tickPerformsTheSelectedTransition : Obligations.TickPerformsTheSelectedTransition := by
  intro v s hs reads writes
  obtain ⟨o, hpo, hexec⟩ := exec_selectedTransition (v := v) hs s.inHasSpace
  refine ⟨_, s.transitionBlock v, s.peripheralBlock v, s.dropped ++ s.lost v, o, s.peripheralObs v, s.looks + 2,
    s.looks + 2, ?_, hexec, exec_tickP v hs, rfl, hpo.symm, State.peripheralBlock_inq, State.peripheralBlock_outq⟩
  refine decode_of_eq_encode (wellFormed_selectedTransition ..) ?_
  exact congrArg Fields.toWord
    (encodeFields_selectedTransition (s.ne_reserved_of_fsmDefined hs) v.rxf v.txe s.outHasData s.inHasSpace v.dataIn).symm

/-- Settles O42: on each queue the tick of one side keeps the other side's registers. -/
theorem ticksKeepTheOtherDomain : Obligations.TicksKeepTheOtherDomain := by
  refine fun s t => ⟨fun v h => ?_, fun x h => ?_⟩
  · obtain ⟨st, -, rfl⟩ := State.peripheralTick_next h
    simp [hostSide]
  · rw [exec_tickH] at h
    cases h
    simp [peripheralSide, State.hostBlock]

/-- Settles O43: queue by queue, with the draws of its two first stages. -/
theorem coincidentTickDrawsItsSamples : Obligations.CoincidentTickDrawsItsSamples := by
  intro v x d s hs
  refine ⟨s.coincidentBlock v x d, s.peripheralBlock v, s.hostBlock x, s.dropped ++ s.lost v, s.dropped ++ s.lost v,
    s.coincidentObs v x, s.peripheralObs v, s.hostObs x, s.looks + 2, s.looks + 2, s.looks + 2, exec_tickPH v x hs d,
    exec_tickP v hs, exec_tickH s x, rfl, rfl, ?_, ?_⟩
  · exact hardware_bothTick_eq ..
  · exact hardware_bothTick_eq ..

/-- Settles O51: in `IDLE` no strobe is given and no word is lost, and neither queue has a pointer or a synchroniser stage
left to move. -/
theorem quiescentTicksChangeNothing : Obligations.QuiescentTicksChangeNothing := by
  intro s v x d hquiet hrxf hsubmit i hi
  have hdefined : FsmDefined s := .inl hquiet.fsm
  have hfsm : policy s.blk.fsm v.rxf v.txe s.blk.outq.dataAvailable = s.blk.fsm := by
    rw [Queue.dataAvailable_of_quiet hquiet.outq, hrxf, hquiet.fsm]
    exact policy_idle_of_nothing v.txe
  have hreading : s.blk.fsm ≠ READING := hquiet.fsm ▸ by decide
  have hwEn : s.wEn v.rxf = false := State.wEn_of_ne_reading hreading v.rxf
  have hlost : s.lost v = [] := State.lost_of_ne_reading hreading v
  simp only [List.mem_cons, List.not_mem_nil, or_false] at hi
  obtain rfl | rfl | rfl := hi
  · refine ⟨s.peripheralBlock v, s.peripheralObs v, s.looks + 2, ?_, hfsm, ?_, ?_⟩
    · rw [exec_tickP v hdefined, hlost, State.drop_nil]
      rfl
    · rw [State.peripheralBlock, hwEn, hardware_producerTick_of_quiet _ hquiet.inq]
    · exact hardware_consumerTick_of_quiet _ _ hquiet.outq
  · refine ⟨s.hostBlock x, s.hostObs x, s.looks + 2, exec_tickH s x, rfl, ?_, ?_⟩
    · exact hardware_consumerTick_of_quiet _ _ hquiet.inq
    · rw [State.hostBlock, hsubmit, hardware_producerTick_of_quiet _ hquiet.outq]
  · refine ⟨s.coincidentBlock v x d, s.coincidentObs v x, s.looks + 2, ?_, hfsm, ?_, ?_⟩
    · rw [exec_tickPH v x hdefined, hlost, State.drop_nil]
      rfl
    · rw [State.coincidentBlock, hwEn, hardware_bothTick_of_quiet _ _ _ _ _ hquiet.inq]
    · rw [State.coincidentBlock, hsubmit, hardware_bothTick_of_quiet _ _ _ _ _ hquiet.outq]

/-- Settles O8: `step` runs what can be presented or is let by itself, and takes off the word of any other row. -/
theorem stepRunsDecodedOperation : Obligations.StepRunsDecodedOperation := by
  intro s w rest i hl hp hd
  have hstep : step s =
      if s.lone || isBlockStep i then exec i { s with pending := rest } else .next { s with pending := rest } := by
    simp only [step, hl, if_true, hp, hd]
  refine ⟨fun hrun => ?_, fun hlone hpart => ?_⟩
  · exact hstep.trans (if_pos (Bool.or_eq_true_iff.2 hrun))
  · exact hstep.trans (if_neg (by rw [hlone, hpart]; exact Bool.false_ne_true))

/-- Settles O41: the H tick commits `hostBlock`, and its outputs are those of the pre-edge state. -/
theorem hostTickUpdates : Obligations.HostTickUpdates :=
  fun x s => ⟨s.hostObs x, s.looks + 2, s.ho x, exec_tickH s x, rfl, rfl, rfl, rfl, rfl⟩

/-- Settles O35: SUBMIT is the H tick with the submit slot used. -/
theorem submitOffersToOutbound : Obligations.SubmitOffersToOutbound :=
  fun p w s => ⟨s.hostObs ⟨true, p, w⟩, s.looks + 2, s.ho ⟨true, p, w⟩, exec_tickH s ⟨true, p, w⟩, rfl,
    Bool.true_and _, Bool.true_and _⟩

/-- Settles O36: POLL is the H tick with the poll slot used; the port hands out the word of `poll()`'s result. -/
theorem pollTakesFromInbound : Obligations.PollTakesFromInbound := by
  intro b w s head
  exact ⟨s.hostObs ⟨b, true, w⟩, s.looks + 2, s.ho ⟨b, true, w⟩, exec_tickH s ⟨b, true, w⟩, rfl, rfl,
    s.pollResult_ho ⟨b, true, w⟩, rfl⟩

/-- Settles O37: each call runs the tick it stands for, and a P tick completes with a defined state code. -/
theorem advanceIsATick : Obligations.AdvanceIsATick := by
  refine ⟨fun s => ⟨rfl, _, exec_tickH s ⟨false, false, 0#16⟩⟩, fun s v => ⟨rfl, fun hs => ⟨_, exec_tickP v hs⟩⟩,
    fun s b w => ⟨rfl, rfl⟩⟩

/-- Settles O38. -/
theorem fillLevelReadsTheLevels : Obligations.FillLevelReadsTheLevels :=
  fun q s => ⟨s.levelObs q, s.looks + 2, exec_fillLevel q s, rfl⟩

/-- Settles O39: the P tick commits `peripheralBlock`, its strobes are the queue requests, and at a write strobe the word on
the consumer port is the head word. -/
theorem peripheralTickUpdates : Obligations.PeripheralTickUpdates := by
  intro v s hs wEn rEn word
  have hwEn : s.wEn v.rxf = wEn := s.wEn_eq v.rxf
  refine ⟨s.peripheralObs v, s.looks + 2, s.po v.rxf v.txe, ?_, rfl, hwEn, rfl, rfl, fun hwrite => ?_⟩
  · rw [exec_tickP v hs, ← hwEn, ← s.dropped_append_lost]
    rfl
  · obtain ⟨hst, -, hdata⟩ := writeStrobe_iff.1 hwrite
    rw [State.po_of_writing hst]
    exact State.outWord_eq_headWord hdata

end Sys2Proof.Machine
end

section
/-! PROOFS of family 44_invariants.md (R250 to R264): the invariant of a queue is kept by each port operation and each shift of
a synchroniser, hence by each tick, hence by each step; what the levels and flags then mean; and the ticks of a coincident edge
taken one after the other. -/

namespace Sys2Proof.Machine

open Sys2Proof.Safety

/-! ### The flag behind an operation that fires (R120, R121) -/

section Fires

variable {a : Nat} {q : Queue a} {en : Bool}

theorem Queue.spaceAvailable_of_enqFire (h : q.enqFire en = true) : q.spaceAvailable = true := (Bool.and_eq_true_iff.1 h).2

theorem Queue.dataAvailable_of_deqFire (h : q.deqFire en = true) : q.dataAvailable = true := (Bool.and_eq_true_iff.1 h).2

end Fires

/-! ### The counts a port operation leaves alone, and those it can only raise -/

section GhostFrames

variable {a : Nat} (q : Queue a) (en : Bool) (w : Word)

@[simp] theorem Queue.producerOp_ghost_rc : (q.producerOp en w).ghost.rc = q.ghost.rc := by
  unfold Queue.producerOp; split <;> rfl
@[simp] theorem Queue.producerOp_ghost_ws1 : (q.producerOp en w).ghost.ws1 = q.ghost.ws1 := by
  unfold Queue.producerOp; split <;> rfl
@[simp] theorem Queue.producerOp_ghost_rs1 : (q.producerOp en w).ghost.rs1 = q.ghost.rs1 := by
  unfold Queue.producerOp; split <;> rfl
@[simp] theorem Queue.consumerOp_ghost_wc : (q.consumerOp en w).ghost.wc = q.ghost.wc := by
  unfold Queue.consumerOp; split <;> rfl
@[simp] theorem Queue.consumerOp_ghost_ws1 : (q.consumerOp en w).ghost.ws1 = q.ghost.ws1 := by
  unfold Queue.consumerOp; split <;> rfl
@[simp] theorem Queue.consumerOp_ghost_rs1 : (q.consumerOp en w).ghost.rs1 = q.ghost.rs1 := by
  unfold Queue.consumerOp; split <;> rfl

theorem Queue.wc_le_producerOp : q.ghost.wc ≤ (q.producerOp en w).ghost.wc := by
  obtain ⟨-, hop⟩ | ⟨-, hop⟩ := q.producerOp_cases en w
  · exact hop ▸ Nat.le_succ _
  · rw [hop]

theorem Queue.rc_le_consumerOp : q.ghost.rc ≤ (q.consumerOp en w).ghost.rc := by
  obtain ⟨-, hop⟩ | ⟨-, hop⟩ := q.consumerOp_cases en w
  · exact hop ▸ Nat.le_succ _
  · rw [hop]

end GhostFrames

/-! ### The words a tick moves (R130, R135) -/

section Words

variable {a : Nat} (q : Queue a) (en : Bool) (w : Word)

/-- A producer tick enqueues the word offered where `enq_fire` holds (R134). -/
theorem Queue.producerTick_ghost_enqueued :
    (q.producerTick en w).ghost.enqueued = q.ghost.enqueued ++ (if q.enqFire en then [w] else []) := by
  split
  · next hfire => rw [Queue.producerTick_of_enqFire w hfire]; rfl
  · next hfire => rw [Queue.producerTick_of_not_enqFire w hfire, List.append_nil]; rfl

/-- A consumer tick takes the word on its port where `deq_fire` holds (R139). -/
theorem Queue.consumerTick_ghost_dequeued :
    (q.consumerTick en w).ghost.dequeued = q.ghost.dequeued ++ (if q.deqFire en then [w] else []) := by
  split
  · next hfire => rw [Queue.consumerTick_of_deqFire w hfire]; rfl
  · next hfire => rw [Queue.consumerTick_of_not_deqFire w hfire, List.append_nil]; rfl

end Words

/-! ### Two edges of one queue in order (R140, R263) -/

section Orders

variable {a : Nat} (q : Queue a) (wEn : Bool) (w : Word) (rEn : Bool) (out : Word)

/-- The producer's side of a queue does not see a consumer's edge at once. -/
@[simp] theorem Queue.consumerTick_wLevel : (q.consumerTick rEn out).wLevel = q.wLevel := by simp [Queue.wLevel]
@[simp] theorem Queue.consumerTick_spaceAvailable : (q.consumerTick rEn out).spaceAvailable = q.spaceAvailable := by
  simp [Queue.spaceAvailable, Queue.full]

/-- The consumer's side of a queue does not see a producer's edge at once. -/
@[simp] theorem Queue.producerTick_rLevel : (q.producerTick wEn w).rLevel = q.rLevel := by simp [Queue.rLevel]
@[simp] theorem Queue.producerTick_dataAvailable : (q.producerTick wEn w).dataAvailable = q.dataAvailable := by
  simp [Queue.dataAvailable, Queue.empty]

/-- The two ports act on different registers, and on the two ends of the contents. -/
theorem Queue.enqueue_dequeue {q : Queue a} (hne : q.ghost.contents ≠ []) :
    (q.dequeue out).enqueue w = (q.enqueue w).dequeue out := by
  have htail : (q.ghost.contents ++ [w]).tail = q.ghost.contents.tail ++ [w] := List.tail_append_of_ne_nil hne
  simp only [Queue.enqueue, Queue.dequeue, Ghost.enq, Ghost.deq, htail]

/-- The order in which a queue's two ports are served has no effect (R140). -/
theorem Queue.producerOp_consumerOp {q : Queue a} (hne : q.dataAvailable = true → q.ghost.contents ≠ []) :
    (q.consumerOp rEn out).producerOp wEn w = (q.producerOp wEn w).consumerOp rEn out := by
  have hspace : (q.consumerOp rEn out).enqFire wEn = q.enqFire wEn := by
    rw [Queue.enqFire, Queue.consumerOp_spaceAvailable, Queue.enqFire]
  obtain ⟨henq, hproducer⟩ | ⟨henq, hproducer⟩ := q.producerOp_cases wEn w
  · rw [Queue.producerOp, if_pos (hspace.trans henq), hproducer]
    obtain ⟨hdeq, hconsumer⟩ | ⟨hdeq, hconsumer⟩ := q.consumerOp_cases rEn out
    · rw [hconsumer, Queue.enqueue_dequeue _ _ (hne (Queue.dataAvailable_of_deqFire hdeq))]
      exact (if_pos hdeq).symm
    · rw [hconsumer]
      exact (if_neg (Bool.eq_false_iff.1 hdeq)).symm
  · rw [Queue.producerOp, if_neg (Bool.eq_false_iff.1 (hspace.trans henq)), hproducer]

/-- A port and the other side's synchroniser act on different registers. -/
theorem Queue.consumerOp_shiftR2W (p : BitVec (a + 1)) (n : Nat) :
    (q.shiftR2W p n).consumerOp rEn out = (q.consumerOp rEn out).shiftR2W p n :=
  (apply_ite (fun q' => Queue.shiftR2W q' p n) (q.deqFire rEn = true) (q.dequeue out) q).symm

theorem Queue.producerOp_shiftW2R (p : BitVec (a + 1)) (n : Nat) :
    (q.shiftW2R p n).producerOp wEn w = (q.producerOp wEn w).shiftW2R p n :=
  (apply_ite (fun q' => Queue.shiftW2R q' p n) (q.enqFire wEn = true) (q.enqueue w) q).symm

/-- With the producer's sample from before the edge and the consumer's from after it, the producer's edge came first. -/
theorem Queue.bothTick_eq_producer_consumer :
    q.bothTick wEn w rEn out false true = (q.producerTick wEn w).consumerTick rEn out := by
  rw [Queue.bothTick, Queue.consumerTick, Queue.producerTick, Queue.consumerOp_shiftR2W]
  simp

/-- With the consumer's sample from before the edge and the producer's from after it, the consumer's edge came first. -/
theorem Queue.bothTick_eq_consumer_producer {q : Queue a} (hne : q.dataAvailable = true → q.ghost.contents ≠ []) :
    q.bothTick wEn w rEn out true false = (q.consumerTick rEn out).producerTick wEn w := by
  rw [Queue.bothTick, Queue.producerTick, Queue.consumerTick, Queue.producerOp_shiftW2R,
    ← Queue.producerOp_consumerOp _ _ _ _ hne]
  simp only [if_true, Bool.false_eq_true, if_false, Queue.producerOp_rptrGray, Queue.producerOp_ghost_rc,
    Queue.shiftW2R_rptrGray, Queue.shiftW2R_ghost, Ghost.syncW_rc]
  rfl

end Orders

/-! ### The signals of a P tick, and what an H edge before it changes (R263, R264) -/

section Signals

/-- A write strobe requests a word only where there is one (R174, R178). -/
theorem State.rEn_eq_true {s : State} {t : Bool} (h : s.rEn t = true) :
    s.blk.fsm = WRITING ∧ s.blk.outq.dataAvailable = true := by
  obtain ⟨hst, -, hdata⟩ := writeStrobe_iff.1 h
  exact ⟨hst, hdata⟩

/-- A write strobe takes a word: a dequeue is requested only where it fires. -/
theorem State.deqFire_rEn (s : State) (t : Bool) : s.blk.outq.deqFire (s.rEn t) = s.rEn t :=
  Bool.and_eq_left_iff_imp.2 fun hwrite => (State.rEn_eq_true hwrite).2

/-- At a write strobe `data_out` is the head word (R176). -/
theorem State.po_dataOut {s : State} {r t : Bool} (h : s.rEn t = true) :
    (s.po r t).dataOut = s.blk.outq.headWord s.era .outq := by
  obtain ⟨hst, hdata⟩ := s.rEn_eq_true h
  rw [State.po_of_writing hst]
  exact State.outWord_eq_headWord hdata

variable {s : State} (v : PI) (x : HI) (o : Obs s.cfg.a)

/-- An H edge leaves the controller's inputs as they were. -/
theorem State.wEn_commit_hostBlock (r : Bool) : (s.commit (s.hostBlock x) o).wEn r = s.wEn r :=
  congrArg (inqWEn s.cfg.gating s.blk.fsm r) (s.blk.inq.consumerTick_spaceAvailable _ _)

theorem State.rEn_commit_hostBlock (t : Bool) : (s.commit (s.hostBlock x) o).rEn t = s.rEn t :=
  congrArg (outqREn s.blk.fsm t) (s.blk.outq.producerTick_dataAvailable _ _)

theorem State.lost_commit_hostBlock : (s.commit (s.hostBlock x) o).lost v = s.lost v := by
  have hdrops : (s.commit (s.hostBlock x) o).drops v.rxf = s.drops v.rxf :=
    congrArg₂ (fun offered space => offered && !space) (State.wEn_commit_hostBlock x o v.rxf)
      (s.blk.inq.consumerTick_spaceAvailable _ _)
  rw [State.lost, hdrops, State.lost]

end Signals

end Sys2Proof.Machine

namespace Sys2Proof.Safety

open Sys2Proof.Machine

/-! ### Counts as pointers (R94, R250) -/

section Counts

variable {a : Nat}

/-- The increment of a count's pointer is the pointer of the next count (R122). -/
theorem nextPtr_ofNat (n : Nat) : nextPtr (BitVec.ofNat (a + 1) n) = BitVec.ofNat (a + 1) (n + 1) :=
  BitVec.ofNat_add_ofNat n 1

/-- A difference of pointers is the difference of their counts while these are at most `DEPTH` apart (R252). -/
theorem toNat_ofNat_sub_ofNat {m n : Nat} (hle : n ≤ m) (hdepth : m ≤ n + 2 ^ a) :
    (BitVec.ofNat (a + 1) m - BitVec.ofNat (a + 1) n).toNat = m - n := by
  have hsub : BitVec.ofNat (a + 1) m - BitVec.ofNat (a + 1) n = BitVec.ofNat (a + 1) (m - n) := by
    rw [sub_eq_iff_eq_add, BitVec.ofNat_add_ofNat, Nat.sub_add_cancel hle]
  have hpos : 0 < 2 ^ a := Nat.two_pow_pos a
  rw [hsub, BitVec.toNat_ofNat, Nat.mod_eq_of_lt]
  rw [Nat.pow_succ]
  omega

/-- `DEPTH` fits a level (R35). -/
theorem toNat_depthLevel (a : Nat) : (depthLevel a).toNat = 2 ^ a := by
  rw [depthLevel, BitVec.toNat_ofNat, Nat.mod_eq_of_lt (Nat.pow_lt_pow_succ Nat.one_lt_two)]

/-- The storage index of a count's pointer (R94). -/
theorem indexOf_ofNat (n : Nat) : indexOf (BitVec.ofNat (a + 1) n) = n % 2 ^ a := by
  rw [indexOf, BitVec.toNat_ofNat, Nat.mod_mod_of_dvd n (Nat.pow_dvd_pow 2 a.le_succ)]

/-- Counts less than `DEPTH` apart have different entries. -/
theorem mod_ne_mod_of_lt {d m n : Nat} (hlt : m < n) (hnear : n < m + d) : m % d ≠ n % d := fun heq =>
  absurd (Nat.ModEq.add_le_of_lt heq hlt) (Nat.not_le_of_lt hnear)

end Counts

/-! ### Levels and flags under the invariant (R253 to R257) -/

section Levels

variable {a : Nat} {q : Queue a}

/-- `w_level` is exact over the count sampled (R253). -/
theorem QueueInv.toNat_wLevel (h : QueueInv q) : q.wLevel.toNat = q.ghost.wc - q.ghost.rs2 := by
  obtain ⟨hrs2, hrs1, hrc, hws2, hws1, hwc⟩ := h.chain
  rw [Queue.wLevel, h.rep.wptrBin, h.rep.wRsync2, gray2bin_bin2gray, toNat_ofNat_sub_ofNat (by omega) hwc]

/-- `r_level` is exact over the count sampled (R253). -/
theorem QueueInv.toNat_rLevel (h : QueueInv q) : q.rLevel.toNat = q.ghost.ws2 - q.ghost.rc := by
  obtain ⟨hrs2, hrs1, hrc, hws2, hws1, hwc⟩ := h.chain
  rw [Queue.rLevel, h.rep.rptrBin, h.rep.rWsync2, gray2bin_bin2gray, toNat_ofNat_sub_ofNat hrc (by omega)]

/-- No space is seen exactly where the level is `DEPTH` (R35). -/
theorem spaceAvailable_eq_false_iff (q : Queue a) : q.spaceAvailable = false ↔ q.wLevel.toNat = 2 ^ a := by
  rw [Queue.spaceAvailable, Queue.full, Bool.not_eq_false', beq_iff_eq, ← BitVec.toNat_inj, toNat_depthLevel]

/-- Space is seen where fewer than `DEPTH` words are not known to be taken (R254). -/
theorem QueueInv.spaceAvailable_iff (h : QueueInv q) : q.spaceAvailable = true ↔ q.ghost.wc < q.ghost.rs2 + 2 ^ a := by
  have hwc := h.chain.wc_le
  have hpos : 0 < 2 ^ a := Nat.two_pow_pos a
  rw [← Bool.not_eq_false, spaceAvailable_eq_false_iff, h.toNat_wLevel]
  omega

/-- Data is seen where a word not yet taken has passed the synchroniser (R254). -/
theorem QueueInv.dataAvailable_iff (h : QueueInv q) : q.dataAvailable = true ↔ q.ghost.rc < q.ghost.ws2 := by
  have hws2 := h.chain.rc_le_ws2
  rw [Queue.dataAvailable, Queue.empty, Bool.not_eq_true', beq_eq_false_iff_ne, Ne, ← BitVec.toNat_inj, h.toNat_rLevel,
    BitVec.ofNat_eq_ofNat, BitVec.toNat_ofNat, Nat.zero_mod]
  omega

/-- The entry read is not the entry written at the same instant (R257). -/
theorem QueueInv.indexOf_ne (h : QueueInv q) (hdata : q.dataAvailable = true) (hspace : q.spaceAvailable = true) :
    indexOf q.rptrBin ≠ indexOf q.wptrBin := by
  obtain ⟨hrs2, hrs1, hrc, hws2, hws1, -⟩ := h.chain
  have hseen := h.dataAvailable_iff.1 hdata
  have hroom := h.spaceAvailable_iff.1 hspace
  rw [h.rep.rptrBin, h.rep.wptrBin, indexOf_ofNat, indexOf_ofNat]
  exact mod_ne_mod_of_lt (by omega) (by omega)

/-- While data is seen the head entry holds the oldest word not yet taken (R258). -/
theorem QueueInv.getElem?_rc (h : QueueInv q) (hdata : q.dataAvailable = true) (era : Nat) (id : QueueId) :
    q.ghost.enqueued[q.ghost.rc]? = some (q.headWord era id) := by
  obtain ⟨-, -, -, hws2, hws1, -⟩ := h.chain
  have hseen := h.dataAvailable_iff.1 hdata
  have hlt : q.ghost.rc < q.ghost.enqueued.length := by rw [h.contents.count]; omega
  have hread := h.contents.live q.ghost.rc le_rfl (by omega)
  rw [List.getElem?_eq_getElem hlt] at hread ⊢
  rw [Queue.headWord, memRead, h.rep.rptrBin, indexOf_ofNat, hread, Option.getD_some]

/-- An enqueue at the same instant leaves the head entry alone (R257). -/
theorem QueueInv.headWord_producerOp (h : QueueInv q) (hdata : q.dataAvailable = true) (wEn : Bool) (w : Word) (era : Nat)
    (id : QueueId) : (q.producerOp wEn w).headWord era id = q.headWord era id := by
  obtain ⟨hfire, hop⟩ | ⟨-, hop⟩ := q.producerOp_cases wEn w
  · rw [hop]
    exact memRead_write_other era id q.mem w (h.indexOf_ne hdata (Queue.spaceAvailable_of_enqFire hfire))
  · rw [hop]

end Levels

/-! ### What keeps the invariant of a queue -/

section Preservation

variable {a : Nat} {q : Queue a}

theorem queueInv_reset (a : Nat) : QueueInv (Queue.reset a) where
  rep :=
    have hgray : (0 : BitVec (a + 1)) = bin2gray 0 := by simp [bin2gray]
    ⟨rfl, hgray, rfl, hgray, hgray, hgray, hgray, hgray⟩
  chain := ⟨le_rfl, le_rfl, le_rfl, le_rfl, le_rfl, Nat.zero_le _⟩
  contents := ⟨rfl, fun _ _ hk => absurd hk (Nat.not_lt_zero _), rfl, rfl, rfl⟩

/-- The word goes to the one entry that is not live, and is the last of the words enqueued. -/
theorem QueueContents.enqueue (h : QueueContents q) (hptr : q.wptrBin = BitVec.ofNat (a + 1) q.ghost.wc)
    (hrc : q.ghost.rc ≤ q.ghost.wc) (hfree : q.ghost.wc < q.ghost.rc + 2 ^ a) (w : Word) : QueueContents (q.enqueue w) where
  count := by simp [h.count]
  live k hlo hhi := by
    simp only [Queue.enqueue_ghost, Queue.enqueue_mem, Ghost.enq_rc, Ghost.enq_wc, Ghost.enq_enqueued] at hlo hhi ⊢
    rw [hptr, indexOf_ofNat]
    obtain hlt | rfl := Nat.lt_or_eq_of_le (Nat.le_of_lt_succ hhi)
    · rw [Memory.read_write_other q.mem w (mod_ne_mod_of_lt hlt (by omega)), h.live k hlo hlt,
        List.getElem?_append_left (h.count.symm ▸ hlt)]
    · rw [Memory.read_write_same, ← h.count, List.getElem?_concat_length]
  contents := by
    simp only [Queue.enqueue_ghost, Ghost.enq_contents, Ghost.enq_enqueued, Ghost.enq_rc]
    rw [List.drop_append_of_le_length (h.count.symm ▸ hrc), h.contents]
  taken := by
    simp only [Queue.enqueue_ghost, Ghost.enq_dequeued, Ghost.enq_enqueued, Ghost.enq_rc]
    rw [List.take_append_of_le_length (h.count.symm ▸ hrc), h.taken]
  form := q.enqueue_wf w h.form

/-- The oldest word goes from the words to come to the words taken. -/
theorem QueueContents.dequeue (h : QueueContents q) {w : Word} (hw : q.ghost.enqueued[q.ghost.rc]? = some w) :
    QueueContents (q.dequeue w) where
  count := h.count
  live k hlo hhi := h.live k (Nat.le_of_succ_le hlo) hhi
  contents := by
    simp only [Queue.dequeue_ghost, Ghost.deq_contents, Ghost.deq_enqueued, Ghost.deq_rc]
    rw [h.contents, List.tail_drop]
  taken := by
    simp only [Queue.dequeue_ghost, Ghost.deq_dequeued, Ghost.deq_enqueued, Ghost.deq_rc]
    rw [h.taken, List.take_add_one, hw, Option.toList_some]
  form := h.form

/-- `ENQ` where space is seen (R130). -/
theorem QueueInv.enqueue (h : QueueInv q) (hspace : q.spaceAvailable = true) (w : Word) : QueueInv (q.enqueue w) := by
  obtain ⟨hrs2, hrs1, hrc, hws2, hws1, -⟩ := h.chain
  have hroom := h.spaceAvailable_iff.1 hspace
  refine ⟨?_, ⟨hrs2, hrs1, hrc, hws2, Nat.le_succ_of_le hws1, hroom⟩,
    h.contents.enqueue h.rep.wptrBin (by omega) (by omega) w⟩
  have hnext : nextPtr q.wptrBin = BitVec.ofNat (a + 1) (q.ghost.wc + 1) := by rw [h.rep.wptrBin, nextPtr_ofNat]
  exact { h.rep with wptrBin := hnext, wptrGray := congrArg bin2gray hnext }

/-- `DEQ` where data is seen (R135). -/
theorem QueueInv.dequeue (h : QueueInv q) (hdata : q.dataAvailable = true) (era : Nat) (id : QueueId) :
    QueueInv (q.dequeue (q.headWord era id)) := by
  obtain ⟨hrs2, hrs1, hrc, hws2, hws1, hwc⟩ := h.chain
  have hseen := h.dataAvailable_iff.1 hdata
  refine ⟨?_, ⟨hrs2, Nat.le_succ_of_le hrs1, hseen, hws2, hws1, hwc⟩, h.contents.dequeue (h.getElem?_rc hdata era id)⟩
  have hnext : nextPtr q.rptrBin = BitVec.ofNat (a + 1) (q.ghost.rc + 1) := by rw [h.rep.rptrBin, nextPtr_ofNat]
  exact { h.rep with rptrBin := hnext, rptrGray := congrArg bin2gray hnext }

/-- A sample of the read pointer between the first stage's and the current one (R133, R202). -/
theorem QueueInv.shiftR2W (h : QueueInv q) {p : BitVec (a + 1)} {n : Nat} (hp : p = bin2gray (BitVec.ofNat (a + 1) n))
    (hlo : q.ghost.rs1 ≤ n) (hhi : n ≤ q.ghost.rc) : QueueInv (q.shiftR2W p n) := by
  obtain ⟨hrs2, hrs1, hrc, hws2, hws1, hwc⟩ := h.chain
  obtain ⟨hcount, hlive, hcontents, htaken, hform⟩ := h.contents
  refine ⟨?_, ⟨hlo, hhi, hrc, hws2, hws1, hwc.trans (Nat.add_le_add_right hrs2 _)⟩,
    ⟨hcount, hlive, hcontents, htaken, hform⟩⟩
  exact { h.rep with wRsync1 := hp, wRsync2 := h.rep.wRsync1 }

/-- A sample of the write pointer between the first stage's and the current one (R138, R202). -/
theorem QueueInv.shiftW2R (h : QueueInv q) {p : BitVec (a + 1)} {n : Nat} (hp : p = bin2gray (BitVec.ofNat (a + 1) n))
    (hlo : q.ghost.ws1 ≤ n) (hhi : n ≤ q.ghost.wc) : QueueInv (q.shiftW2R p n) := by
  obtain ⟨hrs2, hrs1, hrc, hws2, hws1, hwc⟩ := h.chain
  obtain ⟨hcount, hlive, hcontents, htaken, hform⟩ := h.contents
  refine ⟨?_, ⟨hrs2, hrs1, hrc.trans hws2, hlo, hhi, hwc⟩, ⟨hcount, hlive, hcontents, htaken, hform⟩⟩
  exact { h.rep with rWsync1 := hp, rWsync2 := h.rep.rWsync1 }

/-- What a producer port does keeps the invariant. -/
theorem QueueInv.producerOp (h : QueueInv q) (wEn : Bool) (w : Word) : QueueInv (q.producerOp wEn w) := by
  obtain ⟨hfire, hop⟩ | ⟨-, hop⟩ := q.producerOp_cases wEn w
  · rw [hop]
    exact h.enqueue (Queue.spaceAvailable_of_enqFire hfire) w
  · rwa [hop]

variable {rEn : Bool} {out : Word} {era : Nat} {id : QueueId}

/-- What a consumer port does keeps the invariant, if the word it takes is the head word. -/
theorem QueueInv.consumerOp (h : QueueInv q) (head : q.deqFire rEn = true → out = q.headWord era id) :
    QueueInv (q.consumerOp rEn out) := by
  obtain ⟨hfire, hop⟩ | ⟨-, hop⟩ := q.consumerOp_cases rEn out
  · rw [hop, head hfire]
    exact h.dequeue (Queue.dataAvailable_of_deqFire hfire) era id
  · rwa [hop]

theorem QueueInv.producerTick (h : QueueInv q) (wEn : Bool) (w : Word) : QueueInv (q.producerTick wEn w) := by
  refine (h.producerOp wEn w).shiftR2W h.rep.rptrGray ?_ ?_
  · rw [Queue.producerOp_ghost_rs1]
    exact h.chain.rs1_le_rc
  · rw [Queue.producerOp_ghost_rc]

theorem QueueInv.consumerTick (h : QueueInv q) (head : q.deqFire rEn = true → out = q.headWord era id) :
    QueueInv (q.consumerTick rEn out) := by
  refine (h.consumerOp head).shiftW2R h.rep.wptrGray ?_ ?_
  · rw [Queue.consumerOp_ghost_ws1]
    exact h.chain.ws1_le_wc
  · rw [Queue.consumerOp_ghost_wc]

/-- Each sample of a coincident edge lies between the pointer before the edge and the pointer after it. -/
theorem QueueInv.bothTick (h : QueueInv q) (wEn : Bool) (w : Word) (dW dR : Bool)
    (head : q.deqFire rEn = true → out = q.headWord era id) : QueueInv (q.bothTick wEn w rEn out dW dR) := by
  have hports : QueueInv ((q.producerOp wEn w).consumerOp rEn out) := by
    refine (h.producerOp wEn w).consumerOp (era := era) (id := id) fun hfire => ?_
    rw [Queue.producerOp_deqFire] at hfire
    rw [head hfire, h.headWord_producerOp (Queue.dataAvailable_of_deqFire hfire)]
  have hrs1 : ((q.producerOp wEn w).consumerOp rEn out).ghost.rs1 ≤ q.ghost.rc := by simpa using h.chain.rs1_le_rc
  have hws1 : ((q.producerOp wEn w).consumerOp rEn out).ghost.ws1 ≤ q.ghost.wc := by simpa using h.chain.ws1_le_wc
  have hrc : q.ghost.rc ≤ ((q.producerOp wEn w).consumerOp rEn out).ghost.rc := by
    simpa using (q.producerOp wEn w).rc_le_consumerOp rEn out
  have hwc : q.ghost.wc ≤ ((q.producerOp wEn w).consumerOp rEn out).ghost.wc := by simpa using q.wc_le_producerOp wEn w
  rw [Queue.bothTick]
  generalize (q.producerOp wEn w).consumerOp rEn out = q' at *
  have hsampleR : QueueInv (q'.shiftR2W (if dW then q'.rptrGray else q.rptrGray)
      (if dW then q'.ghost.rc else q.ghost.rc)) := by
    cases dW with
    | true => exact hports.shiftR2W hports.rep.rptrGray (hrs1.trans hrc) le_rfl
    | false => exact hports.shiftR2W h.rep.rptrGray hrs1 hrc
  cases dR with
  | true => exact hsampleR.shiftW2R hports.rep.wptrGray (hws1.trans hwc) le_rfl
  | false => exact hsampleR.shiftW2R h.rep.wptrGray hws1 hwc

/-- Every move of a queue keeps its invariant. -/
theorem QueueInv.of_queueMove {q' : Queue a} (h : QueueInv q) (hmove : QueueMove era id q q') : QueueInv q' := by
  cases hmove with
  | stay => exact h
  | enqueue w space => exact h.enqueue space w
  | dequeue data => exact h.dequeue data era id
  | syncR2W => exact h.shiftR2W h.rep.rptrGray h.chain.rs1_le_rc le_rfl
  | syncW2R => exact h.shiftW2R h.rep.wptrGray h.chain.ws1_le_wc le_rfl
  | producerTick wEn w => exact h.producerTick wEn w
  | consumerTick rEn out head => exact h.consumerTick fun hfire => head (Queue.dataAvailable_of_deqFire hfire)
  | bothTick wEn w rEn out dW dR head =>
    exact h.bothTick wEn w dW dR fun hfire => head (Queue.dataAvailable_of_deqFire hfire)

end Preservation

/-! ### What keeps the invariant of the block -/

section Block

variable {s t : State}

/-- What every operation owes the controller: a state it answers has a defined code. -/
def AnswersDefinedCode : Result → Prop
  | .next t => FsmDefined t
  | _ => True

theorem fsmDefined_commit_setQueue (h : FsmDefined s) (id : QueueId) (q : Queue s.cfg.a) (o : Obs s.cfg.a) :
    FsmDefined (s.commit (s.blk.setQueue id q) o) := by
  simpa [FsmDefined] using h

theorem answersDefinedCode_perform (selected : Bool) (hs : FsmDefined s) (ht : FsmDefined t) :
    AnswersDefinedCode (s.perform selected t) := by
  cases selected with
  | false => exact hs
  | true => exact ht

theorem answersDefinedCode_performRow (mask value key : BitVec 6) (hs : FsmDefined s) (ht : FsmDefined t) :
    AnswersDefinedCode (s.performRow mask value key t) := by
  unfold State.performRow
  split
  · trivial
  · exact answersDefinedCode_perform _ hs ht

theorem answersDefinedCode_peripheralTick (v : PI) : AnswersDefinedCode (s.peripheralTick v) := by
  unfold State.peripheralTick
  split
  · trivial
  · next hnext => exact nextFsm_defined hnext

theorem answersDefinedCode_coincidentTick (v : PI) (x : HI) (d : Draws) : AnswersDefinedCode (s.coincidentTick v x d) := by
  unfold State.coincidentTick
  split
  · trivial
  · next hnext => exact nextFsm_defined hnext

/-- No operation brings the controller into the reserved code (R105). -/
theorem exec_answersDefinedCode (h : FsmDefined s) (i : Instr) : AnswersDefinedCode (exec i s) := by
  cases i with
  | fsmIdleHoldT0 | fsmIdleHoldD0 | fsmReadExit | fsmWriteExitT0 | fsmWriteExitD0 =>
    exact answersDefinedCode_performRow _ _ _ h (.inl rfl)
  | fsmIdleRead | fsmReadCont => exact answersDefinedCode_performRow _ _ _ h (.inr (.inl rfl))
  | fsmIdleWrite | fsmWriteCont => exact answersDefinedCode_performRow _ _ _ h (.inr (.inr rfl))
  | fsmReserved => trivial
  | enq | deq => exact answersDefinedCode_perform _ h (fsmDefined_commit_setQueue h _ _ _)
  | enqRefused | deqEmpty => exact answersDefinedCode_perform _ h h
  | syncR2W | syncW2R => exact fsmDefined_commit_setQueue h _ _ _
  | prodIdle | consIdle | submit | poll | fillLevel | tickH => exact h
  | advance caller =>
    cases caller with
    | host => exact h
    | peripheral v => exact answersDefinedCode_peripheralTick v
  | tickP v => exact answersDefinedCode_peripheralTick v
  | tickPH v x d => exact answersDefinedCode_coincidentTick v x d
  | reset => exact .inl rfl

/-- Every operation keeps the invariant: RESET establishes it, and any other moves each queue once. -/
theorem Inv.of_exec (h : Inv s) {i : Instr} (hexec : exec i s = .next t) : Inv t := by
  have hfsm : AnswersDefinedCode (exec i s) := exec_answersDefinedCode h.fsm i
  rw [hexec] at hfsm
  by_cases hreset : ∃ p e, i = .reset p e
  · obtain ⟨p, e, rfl⟩ := hreset
    rw [exec_reset] at hexec
    cases hexec
    exact ⟨queueInv_reset _, queueInv_reset _, hfsm⟩
  · have hmoves : MovesQueues s (exec i s) := exec_movesQueues fun p e hi => hreset ⟨p, e, hi⟩
    rw [hexec] at hmoves
    obtain ⟨b, o, n, ws, rfl, hinq, houtq⟩ := hmoves
    exact ⟨h.inq.of_queueMove hinq, h.outq.of_queueMove houtq, hfsm⟩

/-- The invariant is the block's: what is still to be presented has no part in it. -/
theorem Inv.withPending (h : Inv s) (ws : List OpWord) : Inv { s with pending := ws } := ⟨h.inq, h.outq, h.fsm⟩

theorem Inv.of_step (h : Inv s) (hstep : step s = .next t) : Inv t := by
  obtain ⟨-, ⟨-, rfl⟩ | ⟨w, rest, -, ⟨-, -, rfl⟩ | ⟨i, -, -, hexec⟩⟩⟩ := step_next hstep
  · exact h
  · exact h.withPending rest
  · exact (h.withPending rest).of_exec hexec

theorem inv_of_reachable (h : Reachable s) : Inv s := by
  induction h with
  | reset c ws => exact ⟨queueInv_reset c.a, queueInv_reset c.a, .inl rfl⟩
  | step _ hstep ih => exact ih.of_step hstep

theorem Inv.queue (h : Inv s) (id : QueueId) : QueueInv (s.queue id) := by
  cases id with
  | inq => exact h.inq
  | outq => exact h.outq

end Block

/-! ### The statements about the invariant -/

/-- Settles O56: a step runs one operation or changes what is pending alone. -/
theorem stepKeepsTheInvariant : Obligations.StepKeepsTheInvariant := by
  exact fun s t h hstep => h.of_step hstep

/-- Settles O57: the invariant holds at every reachable state, and the words taken are an initial part of the words enqueued
by its contents law. -/
theorem reachableStatesAreLossless : Obligations.ReachableStatesAreLossless := by
  intro s hs q
  obtain ⟨hrep, hchain, hcontents⟩ := (inv_of_reachable hs).queue q
  refine ⟨hrep, hchain, hcontents, ?_, ?_⟩
  · have hrs2_le_rc := hchain.rs2_le_rs1.trans hchain.rs1_le_rc
    exact Nat.sub_le_iff_le_add'.2 (hchain.wc_le.trans (Nat.add_le_add_right hrs2_le_rc _))
  · rw [hcontents.taken]
    exact List.take_prefix _ _

/-! ### Queues that show the converses of R254 to fail -/

/-- One word enqueued, which no consumer edge has sampled yet. -/
def unseenWordQueue : Queue 1 := (Queue.reset 1).producerTick true 0

/-- Two words enqueued into two entries, seen by the consumer and one of them taken, which no producer edge has sampled
yet. -/
def unseenSpaceQueue : Queue 1 :=
  let seen := ((unseenWordQueue.producerTick true 0).consumerTick false 0).consumerTick false 0
  seen.consumerTick true (seen.headWord 0 .inq)

theorem queueInv_unseenWordQueue : QueueInv unseenWordQueue := (queueInv_reset 1).producerTick true 0

theorem queueInv_unseenSpaceQueue : QueueInv unseenSpaceQueue := by
  have hidle {q : Queue 1} (h : QueueInv q) : QueueInv (q.consumerTick false 0) :=
    h.consumerTick (era := 0) (id := .inq) fun hfire => absurd hfire Bool.false_ne_true
  exact (hidle (hidle (queueInv_unseenWordQueue.producerTick true 0))).consumerTick fun _ => rfl

/-! ### The Gray code of the top bit (R262) -/

section TopBit

variable {a : Nat}

/-- Adding `DEPTH` to a pointer inverts its top bit and no other. -/
theorem add_depthLevel (p : BitVec (a + 1)) : p + depthLevel a = p ^^^ BitVec.twoPow (a + 1) a := by
  refine BitVec.eq_of_getLsbD_eq fun i hi => ?_
  have hsum : (p + depthLevel a).getLsbD i = (2 ^ a + p.toNat).testBit i := by
    rw [BitVec.getLsbD, BitVec.toNat_add, toNat_depthLevel, Nat.testBit_mod_two_pow, decide_eq_true hi, Bool.true_and,
      Nat.add_comm]
  rw [hsum, BitVec.getLsbD_xor, BitVec.getLsbD_twoPow, BitVec.getLsbD]
  obtain hlt | rfl := Nat.lt_or_eq_of_le (Nat.le_of_lt_succ hi)
  · rw [Nat.testBit_two_pow_add_gt hlt]
    simp [hlt.ne']
  · rw [Nat.testBit_two_pow_add_eq]
    simp

/-- The top bit's Gray code is the two top bits. -/
theorem bin2gray_twoPow_top (ha : 1 ≤ a) : bin2gray (BitVec.twoPow (a + 1) a) = (0b11 : BitVec (a + 1)) <<< (a - 1) := by
  obtain ⟨k, rfl⟩ := Nat.exists_eq_succ_of_ne_zero (Nat.ne_of_gt ha)
  refine BitVec.eq_of_getLsbD_eq fun i hi => ?_
  rw [getLsbD_bin2gray, BitVec.getLsbD_twoPow, BitVec.getLsbD_twoPow, BitVec.getLsbD_shiftLeft,
    BitVec.ofNat_eq_ofNat, BitVec.getLsbD_ofNat]
  obtain hlt | rfl | rfl : i < k ∨ i = k ∨ i = k + 1 := by omega
  · simp [hlt, show k + 1 ≠ i by omega, show k ≠ i by omega]
  · simp
  · simp [Nat.testBit]

/-- A code from a code: exclusive or in Gray code is exclusive or of the pointers. -/
theorem eq_bin2gray_xor_iff (p g m : BitVec (a + 1)) : bin2gray p = g ^^^ bin2gray m ↔ p = gray2bin g ^^^ m := by
  rw [← bin2gray_gray2bin g, ← bin2gray_xor, gray2bin_bin2gray]
  exact ⟨fun heq => by rw [← gray2bin_bin2gray p, heq, gray2bin_bin2gray], congrArg bin2gray⟩

/-- The full level, as a comparison of the pointer's Gray code with the code sampled (R262). -/
theorem full_iff_gray (ha : 1 ≤ a) (q : Queue a) :
    q.full = true ↔ bin2gray q.wptrBin = q.wRsync2 ^^^ ((0b11 : BitVec (a + 1)) <<< (a - 1)) := by
  rw [← bin2gray_twoPow_top ha, eq_bin2gray_xor_iff, ← add_depthLevel, Queue.full, beq_iff_eq, Queue.wLevel,
    sub_eq_iff_eq_add, add_comm (depthLevel a)]

/-- The empty level, as a comparison of the pointer's Gray code with the code sampled (R262). -/
theorem empty_iff_gray (q : Queue a) : q.empty = true ↔ bin2gray q.rptrBin = q.rWsync2 := by
  rw [Queue.empty, beq_iff_eq, Queue.rLevel]
  constructor
  · intro hlevel
    rw [← sub_eq_zero.1 hlevel, bin2gray_gray2bin]
  · intro hgray
    rw [← hgray, gray2bin_bin2gray]
    exact sub_self _

end TopBit

/-! ### The statements about the status signals -/

/-- Settles O13: the levels are differences of counts, which the chain orders; the converses fail on the two queues above. -/
theorem levelsAreExactAndPessimistic : Obligations.LevelsAreExactAndPessimistic := by
  refine ⟨fun a q h => ?_, ⟨1, unseenSpaceQueue, le_rfl, queueInv_unseenSpaceQueue, by decide, by decide⟩,
    ⟨1, unseenWordQueue, le_rfl, queueInv_unseenWordQueue, by decide, by decide⟩⟩
  obtain ⟨hrs2, hrs1, hrc, hws2, hws1, hwc⟩ := h.chain
  rw [spaceAvailable_eq_false_iff, h.spaceAvailable_iff, h.dataAvailable_iff, h.toNat_wLevel, h.toNat_rLevel, occupancy]
  exact ⟨rfl, rfl, by omega, by omega, by omega, Iff.rfl, fun hroom => by omega, fun hseen => ⟨by omega, hseen⟩⟩

/-- Settles O14: the Gray pointers are the codes of the binary ones. -/
theorem flagsCompareGrayCodes : Obligations.FlagsCompareGrayCodes := by
  intro a q ha h
  obtain ⟨hw, hr⟩ := queueInv_gray_eq h
  rw [hw, hr]
  exact ⟨empty_iff_gray q, full_iff_gray ha q⟩

/-- Settles O15: between the two pointers stand fewer counts than there are entries. -/
theorem noEntryReadAndWrittenAtOnce : Obligations.NoEntryReadAndWrittenAtOnce := by
  exact fun a q h hdata => ⟨h.dataAvailable_iff.1 hdata, h.indexOf_ne hdata⟩

/-! ### The statements about the words that move -/

/-- Settles O46: the strobes are the two queue requests, and each port does what its flag lets it do. -/
theorem strobesMoveWords : Obligations.StrobesMoveWords := by
  intro v s hs
  refine ⟨s.peripheralBlock v, s.dropped ++ s.lost v, s.peripheralObs v, s.looks + 2, s.po v.rxf v.txe, exec_tickP v hs,
    rfl, ?_, ?_, rfl, ?_, fun hwrite => (State.rEn_eq_true hwrite).2⟩
  · have htaken := s.blk.outq.consumerTick_ghost_dequeued (s.rEn v.txe) (s.blk.outq.headWord s.era .outq)
    rw [State.deqFire_rEn] at htaken
    rw [State.po_writeStrobe]
    refine htaken.trans (congrArg _ (ite_congr rfl (fun hwrite => ?_) fun _ => rfl))
    rw [State.po_dataOut hwrite]
  · exact s.blk.inq.producerTick_ghost_enqueued (s.wEn v.rxf) v.dataIn
  · intro hgated hread
    obtain ⟨-, -, hready⟩ := readStrobe_iff.1 hread
    rwa [hgated] at hready

/-- Settles O52: under the invariant the head entry holds the oldest word not yet taken. -/
theorem dequeueReturnsOldestWord : Obligations.DequeueReturnsOldestWord := by
  intro q s hs hdata
  have h := hs.queue q
  have hhead := h.getElem?_rc hdata s.era q
  refine ⟨_, (s.queue q).headWord s.era q, exec_deq hdata, ?_, hhead, ?_, ?_⟩
  · rw [h.contents.contents, List.head?_drop, hhead]
  · simp [State.queue]
  · simp [State.queue]

/-! ### Quiet ticks (R261) -/

section QuietTicks

variable {a : Nat}

/-- What a second synchroniser stage holds after `n` edges of its side at a source that stays at `c`, from stages at `s1` and
`s2`. -/
def secondStage (c s1 s2 : Nat) : Nat → Nat
  | 0 => s2
  | 1 => s1
  | _ + 2 => c

theorem secondStage_succ (c s1 s2 : Nat) : ∀ n, secondStage c s1 s2 (n + 1) = secondStage c c s1 n
  | 0 | 1 | _ + 2 => rfl

theorem secondStage_of_two_le (c s1 s2 : Nat) {n : Nat} (hn : 2 ≤ n) : secondStage c s1 s2 n = c := by
  obtain ⟨k, rfl⟩ := Nat.exists_eq_add_of_le' hn
  rfl

/-- Where no pointer moves the draws have no effect, and one edge may as well come after the other. -/
theorem bothTick_quiet (q : Queue a) (dW dR : Bool) :
    q.bothTick false 0 false 0 dW dR = (q.producerTick false 0).consumerTick false 0 := by
  have hports : (q.producerOp false 0).consumerOp false 0 = q := rfl
  rw [Queue.bothTick, hports]
  simp only [ite_self]
  rfl

/-- A quiet list of edges moves the synchronisers' stages alone. -/
theorem quietTicks_ghost (l : List QuietTick) (q : Queue a) :
    (quietTicks l q).ghost.wc = q.ghost.wc ∧ (quietTicks l q).ghost.rc = q.ghost.rc ∧
      (quietTicks l q).ghost.rs2 = secondStage q.ghost.rc q.ghost.rs1 q.ghost.rs2 (producerEdges l) ∧
      (quietTicks l q).ghost.ws2 = secondStage q.ghost.wc q.ghost.ws1 q.ghost.ws2 (consumerEdges l) := by
  induction l generalizing q with
  | nil => exact ⟨rfl, rfl, rfl, rfl⟩
  | cons t l ih =>
    cases t with
    | producer =>
      rw [producerEdges, secondStage_succ]
      exact ih (q.producerTick false 0)
    | consumer =>
      rw [consumerEdges, secondStage_succ]
      exact ih (q.consumerTick false 0)
    | both dW dR =>
      rw [quietTicks, bothTick_quiet, producerEdges, consumerEdges, secondStage_succ, secondStage_succ]
      exact ih ((q.producerTick false 0).consumerTick false 0)

theorem QueueInv.quietTicks {q : Queue a} (h : QueueInv q) (l : List QuietTick) : QueueInv (quietTicks l q) := by
  have hnone (q : Queue a) (hfire : q.deqFire false = true) : (0 : Word) = q.headWord 0 .inq :=
    absurd hfire Bool.false_ne_true
  induction l generalizing q with
  | nil => exact h
  | cons t l ih =>
    cases t with
    | producer => exact ih (h.producerTick false 0)
    | consumer => exact ih (h.consumerTick (hnone q))
    | both dW dR => exact ih (h.bothTick false 0 dW dR (hnone q))

end QuietTicks

/-- Settles O53: after two edges of each side both second stages hold the count itself. -/
theorem quietQueueConverges : Obligations.QuietQueueConverges := by
  intro a q l h hproducer hconsumer
  obtain ⟨hwc, hrc, hrs2, hws2⟩ := quietTicks_ghost l q
  rw [secondStage_of_two_le _ _ _ hproducer] at hrs2
  rw [secondStage_of_two_le _ _ _ hconsumer] at hws2
  rw [(h.quietTicks l).toNat_wLevel, (h.quietTicks l).toNat_rLevel, occupancy, occupancy, hwc, hrc, hrs2, hws2]
  exact ⟨rfl, rfl, rfl⟩

/-! ### A coincident edge as two edges in order (R263) -/

section Orders

variable {a : Nat} {q : Queue a} (h : QueueInv q)
include h

/-- Where data is seen there is a word not yet taken (R254). -/
theorem QueueInv.contents_ne_nil (hdata : q.dataAvailable = true) : q.ghost.contents ≠ [] := by
  have hhead := h.getElem?_rc hdata 0 .inq
  rw [← List.head?_drop, ← h.contents.contents] at hhead
  exact List.ne_nil_of_mem (List.mem_of_head? hhead)

/-- A consumer edge right after a producer edge takes the word it would have taken at the same instant (R257). -/
theorem QueueInv.consumerTick_headWord_producerTick (wEn : Bool) (w : Word) (rEn : Bool) (era : Nat) (id : QueueId) :
    (q.producerTick wEn w).consumerTick rEn ((q.producerTick wEn w).headWord era id) =
      (q.producerTick wEn w).consumerTick rEn (q.headWord era id) := by
  refine congrArg (fun q' => Queue.shiftW2R q' _ _) (Queue.consumerOp_congr rEn fun hdata => ?_)
  exact h.headWord_producerOp ((q.producerTick_dataAvailable wEn w).symm.trans hdata) wEn w era id

end Orders

/-- `data_out` may be used at a write strobe alone, where data is available (R323). -/
theorem usablePO_controllerPO_congr (g : ReadGating) (st : BitVec 2) (r t d sp : Bool) {x y : Word} (hxy : d = true → x = y) :
    usablePO (controllerPO g st r t d sp x) = usablePO (controllerPO g st r t d sp y) := by
  cases d with
  | true => rw [hxy rfl]
  | false => simp [usablePO, controllerPO, writeStrobe]

section Block

variable {s : State} (h : Inv s) (v : PI) (x : HI) (o : Obs s.cfg.a)
include h

/-- `TICK_H` then `TICK_P` leave what `TICK_PH` leaves with draws `1100`. -/
theorem Inv.peripheralBlock_commit_hostBlock :
    (s.commit (s.hostBlock x) o).peripheralBlock v = s.coincidentBlock v x ⟨true, true, false, false⟩ := by
  rw [State.peripheralBlock, State.coincidentBlock, State.wEn_commit_hostBlock, State.rEn_commit_hostBlock,
    Queue.bothTick_eq_producer_consumer,
    Queue.bothTick_eq_consumer_producer _ _ _ _ h.inq.contents_ne_nil,
    ← h.outq.consumerTick_headWord_producerTick, ← s.blk.outq.producerTick_dataAvailable x.submitValid x.submitWord]
  rfl

/-- `TICK_P` then `TICK_H` leave what `TICK_PH` leaves with draws `0011`. -/
theorem Inv.hostBlock_commit_peripheralBlock (ws : List Word) :
    ((s.commit (s.peripheralBlock v) o).drop ws).hostBlock x = s.coincidentBlock v x ⟨false, false, true, true⟩ := by
  rw [State.coincidentBlock, Queue.bothTick_eq_producer_consumer,
    Queue.bothTick_eq_consumer_producer _ _ _ _ h.outq.contents_ne_nil,
    ← h.inq.consumerTick_headWord_producerTick]
  rfl

/-- An H edge leaves the peripheral the same outputs, where they may be used. -/
theorem Inv.usablePO_commit_hostBlock (r t : Bool) :
    usablePO ((s.commit (s.hostBlock x) o).po r t) = usablePO (s.po r t) := by
  have hdata : (s.commit (s.hostBlock x) o).outHasData = s.outHasData := s.blk.outq.producerTick_dataAvailable _ _
  have hspace : (s.commit (s.hostBlock x) o).inHasSpace = s.inHasSpace := s.blk.inq.consumerTick_spaceAvailable _ _
  rw [State.po, hdata, hspace]
  refine usablePO_controllerPO_congr _ _ _ _ _ _ fun hd => ?_
  rw [State.outWord_eq_headWord (hdata.trans hd), State.outWord_eq_headWord hd]
  exact h.outq.headWord_producerOp hd _ _ _ _

/-- A P edge leaves the host the same outputs, where they may be used. -/
theorem Inv.usableHO_commit_peripheralBlock (ws : List Word) :
    usableHO (((s.commit (s.peripheralBlock v) o).drop ws).ho x) = usableHO (s.ho x) := by
  have hspace : (s.peripheralBlock v).outq.spaceAvailable = s.blk.outq.spaceAvailable :=
    s.blk.outq.consumerTick_spaceAvailable _ _
  have hdata : (s.peripheralBlock v).inq.dataAvailable = s.blk.inq.dataAvailable :=
    s.blk.inq.producerTick_dataAvailable _ _
  have hw : (s.peripheralBlock v).outq.wLevel = s.blk.outq.wLevel := s.blk.outq.consumerTick_wLevel _ _
  have hr : (s.peripheralBlock v).inq.rLevel = s.blk.inq.rLevel := s.blk.inq.producerTick_rLevel _ _
  simp only [usableHO, State.ho, State.drop_blk, State.commit_blk, State.drop_cfg, State.commit_cfg, hspace, hdata, hw, hr]
  congr 1
  refine ite_congr rfl (fun hd => ?_) fun _ => rfl
  rw [State.inWord_eq_headWord (s := (s.commit (s.peripheralBlock v) o).drop ws) (hdata.trans hd),
    State.inWord_eq_headWord hd]
  exact h.inq.headWord_producerOp hd _ _ _ _

end Block

/-- Settles O59: on each queue the draws order the two edges, and neither edge reaches the other side at once. -/
theorem coincidentEdgesIncludeBothOrders : Obligations.CoincidentEdgesIncludeBothOrders := by
  intro v x s hinv
  refine ⟨⟨s.coincidentBlock v x ⟨true, true, false, false⟩, s.hostBlock x, s.dropped ++ s.lost v, s.coincidentObs v x,
    s.hostObs x, (s.commit (s.hostBlock x) (s.hostObs x)).peripheralObs v, s.looks + 2, s.looks + 2, s.looks + 2 + 2,
    exec_tickPH v x hinv.fsm _, exec_tickH s x, ?_, ?_, rfl⟩,
    ⟨s.coincidentBlock v x ⟨false, false, true, true⟩, s.peripheralBlock v, s.dropped ++ s.lost v, s.coincidentObs v x,
    ((s.commit (s.peripheralBlock v) (s.peripheralObs v)).drop (s.lost v)).hostObs x, s.peripheralObs v, s.looks + 2,
    s.looks + 2 + 2, s.looks + 2, exec_tickPH v x hinv.fsm _, exec_tickP v hinv.fsm, ?_, rfl, ?_⟩⟩
  · refine (exec_tickP (s := s.commit (s.hostBlock x) (s.hostObs x)) v hinv.fsm).trans ?_
    rw [hinv.peripheralBlock_commit_hostBlock, State.lost_commit_hostBlock]
    rfl
  · exact congrArg some (hinv.usablePO_commit_hostBlock x _ v.rxf v.txe).symm
  · refine (exec_tickH ((s.commit (s.peripheralBlock v) (s.peripheralObs v)).drop (s.lost v)) x).trans ?_
    rw [hinv.hostBlock_commit_peripheralBlock]
    rfl
  · exact congrArg some (hinv.usableHO_commit_peripheralBlock v x _ _).symm

end Sys2Proof.Safety
end

section
/-! PROOFS of family 60_exceptions.md (R280, R285, R289): a request that fails leaves no trace, gated reads lose no word, and
the one fault is the reserved row run by itself. What an operation loses and where it stops are each said once, over all
operations. -/

namespace Sys2Proof.Machine

open Sys2Proof.Safety

/-! ### Requests that fail (R281, R282, R289) -/

/-- Where there is no space no enqueue fires (R120). -/
theorem Queue.enqFire_of_not_spaceAvailable {a : Nat} {q : Queue a} (wEn : Bool) (h : q.spaceAvailable = false) :
    q.enqFire wEn = false := by
  rw [Queue.enqFire, h, Bool.and_false]

/-- Settles O34: neither tick fires, so both are the synchroniser's shift alone. -/
theorem failedRequestsLeaveNoTrace : Obligations.FailedRequestsLeaveNoTrace := by
  refine fun a q w x => ⟨fun hfull => ?_, fun hempty => ?_⟩
  · have hfire (wEn : Bool) : ¬ q.enqFire wEn = true := Bool.eq_false_iff.1 (Queue.enqFire_of_not_spaceAvailable wEn hfull)
    rw [Queue.producerTick_of_not_enqFire w (hfire true), Queue.producerTick_of_not_enqFire x (hfire false)]
  · have hfire (rEn : Bool) : ¬ q.deqFire rEn = true := Bool.eq_false_iff.1 (Queue.deqFire_of_not_dataAvailable rEn hempty)
    rw [Queue.consumerTick_of_not_deqFire w (hfire true), Queue.consumerTick_of_not_deqFire x (hfire false)]

/-! ### Words lost on the inbound path (R285) -/

section Losses

variable {s : State}

/-- No event of these is the loss of an inbound word. -/
def ShowsNoDrop (es : List (Event × QueueId)) : Prop := ∀ id, (Event.inboundDrop, id) ∉ es

theorem showsNoDrop_nil : ShowsNoDrop [] := fun _ => List.not_mem_nil

theorem ShowsNoDrop.append {es es' : List (Event × QueueId)} (h : ShowsNoDrop es) (h' : ShowsNoDrop es') :
    ShowsNoDrop (es ++ es') := fun id hmem =>
  (List.mem_append.1 hmem).elim (h id) (h' id)

theorem showsNoDrop_singleton {e : Event} (id : QueueId) (h : e ≠ .inboundDrop) : ShowsNoDrop [(e, id)] :=
  fun _ hmem => h (congrArg Prod.fst (List.mem_singleton.1 hmem)).symm

/-- A refused enqueue alone is a capacity violation, whatever becomes of its word (R281). -/
theorem showsNoDrop_producerEvents {a : Nat} (id : QueueId) (q : Queue a) (wEn : Bool) :
    ShowsNoDrop (producerEvents id q wEn) := by
  unfold producerEvents
  split
  · exact showsNoDrop_singleton id nofun
  · exact showsNoDrop_nil

theorem showsNoDrop_consumerEvents {a : Nat} (id : QueueId) (q : Queue a) (rEn : Bool) :
    ShowsNoDrop (consumerEvents id q rEn) := by
  unfold consumerEvents
  split
  · exact showsNoDrop_singleton id nofun
  · exact showsNoDrop_nil

theorem showsNoDrop_hostObs (x : HI) : ShowsNoDrop (s.hostObs x).events :=
  (showsNoDrop_producerEvents _ _ _).append (showsNoDrop_consumerEvents _ _ _)

/-- What an operation that loses no inbound word owes: a state it answers has the same record of lost words, and shows no
loss. -/
def LosesNoWord (s : State) : Result → Prop
  | .next t => t.dropped = s.dropped ∧ ShowsNoDrop t.obs.events
  | _ => True

/-- A commit records no loss. -/
theorem losesNoWord_commit (b : Block s.cfg.a) {o : Obs s.cfg.a} (h : ShowsNoDrop o.events) :
    LosesNoWord s (.next (s.commit b o)) := ⟨rfl, h⟩

theorem losesNoWord_perform {t : State} (selected : Bool) (h : LosesNoWord s (.next t)) :
    LosesNoWord s (s.perform selected t) := by
  cases selected with
  | false => exact losesNoWord_commit s.blk showsNoDrop_nil
  | true => exact h

theorem losesNoWord_performRow {t : State} (mask value key : BitVec 6) (h : LosesNoWord s (.next t)) :
    LosesNoWord s (s.performRow mask value key t) := by
  unfold State.performRow
  split
  · trivial
  · exact losesNoWord_perform _ h

theorem losesNoWord_commit_portObs (b : Block s.cfg.a) (id : QueueId) (p : PortObs) {es : List (Event × QueueId)}
    (h : ShowsNoDrop es) : LosesNoWord s (.next (s.commit b (portObs s.cfg.a id p es))) := by
  refine losesNoWord_commit b ?_
  rwa [portObs_events]

theorem losesNoWord_hostTick (x : HI) : LosesNoWord s (.next (s.hostTick x)) :=
  losesNoWord_commit _ (showsNoDrop_hostObs x)

/-! ### A P edge with gated reads (R172, R285) -/

variable (hg : s.cfg.gating = .gated)
include hg

/-- Gated, `in_ready` is the space itself, so no word is offered without space (R170, R173). -/
theorem State.drops_of_gated (r : Bool) : s.drops r = false := by
  rw [State.drops, State.wEn, inqWEn, hg, inReady, Bool.and_assoc, Bool.and_not_self, Bool.and_false]

theorem State.lost_of_gated (v : PI) : s.lost v = [] := by
  rw [State.lost, State.drops_of_gated hg, if_neg Bool.false_ne_true]

theorem State.showsNoDrop_inboundEvents (r : Bool) : ShowsNoDrop (s.inboundEvents r) := by
  rw [State.inboundEvents, State.drops_of_gated hg, if_neg Bool.false_ne_true, List.append_nil]
  exact showsNoDrop_producerEvents _ _ _

theorem State.showsNoDrop_peripheralObs (v : PI) : ShowsNoDrop (s.peripheralObs v).events :=
  (State.showsNoDrop_inboundEvents hg _).append (showsNoDrop_consumerEvents _ _ _)

theorem losesNoWord_readWord (t : Bool) (w : Word) : LosesNoWord s (.next (s.readWord t w)) := by
  rw [State.readWord, State.drops_of_gated hg, if_neg Bool.false_ne_true, State.drop_nil]
  exact losesNoWord_commit _ (State.showsNoDrop_inboundEvents hg true)

theorem losesNoWord_peripheralTick (v : PI) : LosesNoWord s (s.peripheralTick v) := by
  unfold State.peripheralTick
  split
  · trivial
  · rw [State.lost_of_gated hg, State.drop_nil]
    exact losesNoWord_commit _ (State.showsNoDrop_peripheralObs hg v)

theorem losesNoWord_coincidentTick (v : PI) (x : HI) (d : Draws) : LosesNoWord s (s.coincidentTick v x d) := by
  unfold State.coincidentTick
  split
  · trivial
  · rw [State.lost_of_gated hg, State.drop_nil]
    exact losesNoWord_commit _ ((State.showsNoDrop_peripheralObs hg v).append (showsNoDrop_hostObs x))

/-- Gated, no operation but RESET touches the record of lost words, and none shows a loss. -/
theorem exec_losesNoWord {i : Instr} (hi : ∀ p h, i ≠ .reset p h) : LosesNoWord s (exec i s) := by
  cases i with
  | fsmIdleRead | fsmIdleWrite | fsmIdleHoldT0 | fsmIdleHoldD0 | fsmReadExit | fsmWriteExitT0 | fsmWriteExitD0 =>
    exact losesNoWord_performRow _ _ _ (losesNoWord_commit _ showsNoDrop_nil)
  | fsmReadCont => exact losesNoWord_performRow _ _ _ (losesNoWord_readWord hg _ _)
  | fsmWriteCont => exact losesNoWord_performRow _ _ _ (losesNoWord_commit _ (showsNoDrop_consumerEvents _ _ _))
  | fsmReserved => trivial
  | enq | deq => exact losesNoWord_perform _ (losesNoWord_commit_portObs _ _ _ showsNoDrop_nil)
  | enqRefused | deqEmpty => exact losesNoWord_perform _ (losesNoWord_commit_portObs _ _ _ (showsNoDrop_singleton _ nofun))
  | prodIdle | consIdle => exact losesNoWord_commit_portObs _ _ _ showsNoDrop_nil
  | syncR2W | syncW2R | fillLevel => exact losesNoWord_commit _ showsNoDrop_nil
  | submit | poll | tickH => exact losesNoWord_hostTick _
  | advance caller =>
    cases caller with
    | host => exact losesNoWord_hostTick _
    | peripheral v => exact losesNoWord_peripheralTick hg v
  | tickP v => exact losesNoWord_peripheralTick hg v
  | tickPH v x d => exact losesNoWord_coincidentTick hg v x d
  | reset p h => exact absurd rfl (hi p h)

end Losses

/-- Settles O47: only a P edge and `FSM_READ_CONT` can lose a word, and gated neither offers one without space. -/
theorem gatedNeverDrops : Obligations.GatedNeverDrops := by
  intro i s t hg hexec hi
  have hloses : LosesNoWord s (exec i s) := exec_losesNoWord hg hi
  rwa [hexec] at hloses

/-! ### Where the machine stops (R105, R280) -/

section Faults

variable {s : State} {r : Fault}

/-- An operation gated by its key never stops (R280). -/
theorem State.perform_ne_fault {t : State} (selected : Bool) : s.perform selected t ≠ .fault r := nofun

/-- A coincident edge stops only where its key has no row. -/
theorem State.coincidentTick_fault {v : PI} {x : HI} {d : Draws} (h : s.coincidentTick v x d = .fault r) :
    nextFsm (s.key v.rxf v.txe) = none := by
  unfold State.coincidentTick at h
  split at h
  · assumption
  · cases h

/-- An operation stops only in the reserved state code, or as the reserved row itself. -/
theorem exec_fault {i : Instr} (h : exec i s = .fault r) :
    s.blk.fsm = RESERVED ∨ ∃ x t d sp, i = .fsmReserved x t d sp := by
  cases i with
  | fsmIdleRead | fsmIdleWrite | fsmIdleHoldT0 | fsmIdleHoldD0 | fsmReadCont | fsmReadExit | fsmWriteCont
  | fsmWriteExitT0 | fsmWriteExitD0 => exact .inl (nextFsm_key_none.1 (State.performRow_fault.1 h))
  | fsmReserved x t d sp => exact .inr ⟨x, t, d, sp, rfl⟩
  | enq | enqRefused | deq | deqEmpty => exact absurd h (State.perform_ne_fault _)
  | prodIdle | consIdle | syncR2W | syncW2R | submit | poll | fillLevel | tickH | reset => cases h
  | advance caller =>
    cases caller with
    | host => cases h
    | peripheral v => exact .inl (nextFsm_key_none.1 (State.peripheralTick_fault h))
  | tickP v => exact .inl (nextFsm_key_none.1 (State.peripheralTick_fault h))
  | tickPH v x d => exact .inl (nextFsm_key_none.1 (State.coincidentTick_fault h))

/-- A step stops only in the operation it runs. -/
theorem step_fault (h : step s = .fault r) :
    ∃ w rest i, s.pending = w :: rest ∧ decode w = .op i ∧ (s.lone || isBlockStep i) = true ∧
      exec i { s with pending := rest } = .fault r := by
  unfold step at h
  split at h
  case isFalse => cases h
  case isTrue =>
    split at h
    · cases h
    · next w rest hp =>
      split at h
      · next i hd =>
        split at h
        case isTrue hrun => exact ⟨w, rest, i, hp, hd, hrun, h⟩
        case isFalse => cases h
      all_goals cases h

end Faults

/-- Settles O58: the invariant leaves the reserved row as the only operation that stops, and that row is no block step, so it
runs by `lone` alone. -/
theorem onlyTheReservedRowFaults : Obligations.OnlyTheReservedRowFaults := by
  intro s r hinv hstep
  obtain ⟨w, rest, i, hp, hd, hrun, hexec⟩ := step_fault hstep
  obtain hreserved | ⟨x, t, d, sp, rfl⟩ := exec_fault hexec
  · exact absurd hreserved (s.ne_reserved_of_fsmDefined hinv.fsm)
  · have hlone : s.lone = true := (Bool.or_false s.lone).symm.trans hrun
    exact ⟨hlone, w, rest, hp, x, t, d, sp, hd⟩

end Sys2Proof.Machine
end

section
/-! PROOFS of family 70_reset_and_hazards.md (R310 to R312, R329, R330): the block right after reset, the bus that passes
through `IDLE` when it turns, and when an enqueued word reaches the consumer. A queue after reset is quiet, so what a quiet
queue shows is said once for the first and the last. -/

namespace Sys2Proof.Machine

open Sys2Proof.Safety

/-! ### What a quiet queue shows (R35, R36, R210) -/

section Quiet

variable {a : Nat} {q : Queue a} (h : QueueQuiet q)
include h

/-- Settled synchronisers show both sides the pointers themselves, and these are equal. -/
theorem Queue.wLevel_of_quiet : q.wLevel = 0 := by
  rw [Queue.wLevel, h.wRsync2, h.rptr, gray2bin_bin2gray, h.empty]
  exact BitVec.sub_self _

theorem Queue.rLevel_of_quiet : q.rLevel = 0 := by
  rw [Queue.rLevel, h.rWsync2, h.wptr, gray2bin_bin2gray, h.empty]
  exact BitVec.sub_self _

/-- A quiet queue is empty, and `DEPTH` is not 0. -/
theorem Queue.spaceAvailable_of_quiet : q.spaceAvailable = true := by
  rw [← Bool.not_eq_false, spaceAvailable_eq_false_iff, Queue.wLevel_of_quiet h]
  exact (Nat.two_pow_pos a).ne

end Quiet

/-! ### The block after reset (R310, R312) -/

theorem queueQuiet_reset (a : Nat) : QueueQuiet (Queue.reset a) :=
  have ⟨hwptr, hrptr⟩ := queueInv_gray_eq (queueInv_reset a)
  ⟨rfl, hwptr, hrptr, rfl, rfl, rfl, rfl⟩

/-- Settles O55: every count, register and list is 0 or empty, and the code is `IDLE`. -/
theorem resetHasTheInvariant : Obligations.ResetHasTheInvariant :=
  fun c => ⟨queueInv_reset c.a, queueInv_reset c.a, .inl rfl⟩

/-- Settles O45: both queues are quiet and the controller is idle, which fixes every output. -/
theorem outputsAfterReset : Obligations.OutputsAfterReset := by
  intro s r t v hblk
  have hin : QueueQuiet s.blk.inq := hblk ▸ queueQuiet_reset s.cfg.a
  have hout : QueueQuiet s.blk.outq := hblk ▸ queueQuiet_reset s.cfg.a
  have hidle : s.blk.fsm = IDLE := congrArg Block.fsm hblk
  have hspace : s.blk.outq.spaceAvailable = true := Queue.spaceAvailable_of_quiet hout
  have hsubmit : (s.ho v).submitOk = v.submitValid :=
    (congrArg (v.submitValid && ·) hspace).trans (Bool.and_true _)
  exact ⟨Queue.spaceAvailable_of_quiet hin, hspace, Queue.dataAvailable_of_quiet hin, Queue.dataAvailable_of_quiet hout,
    Queue.wLevel_of_quiet hin, Queue.wLevel_of_quiet hout, Queue.rLevel_of_quiet hin, Queue.rLevel_of_quiet hout,
    State.po_of_idle hidle r t, hsubmit, Queue.dataAvailable_of_quiet hin⟩

/-! ### The bus turns through `IDLE` (R165, R167, R168, R329) -/

/-- The controller keeps its code, or leaves `IDLE`, or enters `IDLE`. -/
def TurnsThroughIdle (st st' : BitVec 2) : Prop := st' = st ∨ st = IDLE ∨ st' = IDLE

theorem eq_idle_of_ne : ∀ st : BitVec 2, st ≠ READING → st ≠ WRITING → st ≠ RESERVED → st = IDLE := by decide

/-- The policy keeps a direction or goes to `IDLE`; it chooses a direction in `IDLE` alone (R160 to R168). -/
theorem turnsThroughIdle_policy {st : BitVec 2} (hst : st ≠ RESERVED) (r t d : Bool) :
    TurnsThroughIdle st (policy st r t d) := by
  unfold policy
  split
  case isTrue hreading =>
    split
    · exact .inl hreading.symm
    · exact .inr (.inr rfl)
  case isFalse hreading =>
    split
    case isTrue hwriting =>
      split
      · exact .inl hwriting.symm
      · exact .inr (.inr rfl)
    case isFalse hwriting => exact .inr (.inl (eq_idle_of_ne st hreading hwriting hst))

/-- A key that has a row leads where the policy does. -/
theorem turnsThroughIdle_of_nextFsm {s : State} {r t : Bool} {st : BitVec 2} (h : nextFsm (s.key r t) = some st) :
    TurnsThroughIdle s.blk.fsm st := by
  have hdefined : s.blk.fsm ≠ RESERVED := fun hs => Option.some_ne_none st (h.symm.trans (nextFsm_key_none.2 hs))
  rw [State.key, nextFsm_fsmKey hdefined] at h
  exact Option.some.inj h ▸ turnsThroughIdle_policy hdefined r t s.outHasData

section Turns

variable {s t u : State}

theorem turnsThroughIdle_of_perform {selected : Bool} (h : s.perform selected u = .next t)
    (hu : u.blk.fsm = s.blk.fsm) : TurnsThroughIdle s.blk.fsm t.blk.fsm := by
  obtain ⟨-, rfl⟩ | ⟨-, rfl⟩ := State.perform_next.1 h
  · exact .inl hu
  · exact .inl rfl

theorem turnsThroughIdle_of_performRow {mask value key : BitVec 6} (h : s.performRow mask value key u = .next t)
    (hu : keySelects mask value key = true → TurnsThroughIdle s.blk.fsm u.blk.fsm) :
    TurnsThroughIdle s.blk.fsm t.blk.fsm := by
  obtain ⟨-, ⟨hsel, rfl⟩ | ⟨-, rfl⟩⟩ := State.performRow_next.1 h
  · exact hu hsel
  · exact .inl rfl

theorem turnsThroughIdle_of_peripheralTick {v : PI} (h : s.peripheralTick v = .next t) :
    TurnsThroughIdle s.blk.fsm t.blk.fsm := by
  obtain ⟨st, hnext, rfl⟩ := State.peripheralTick_next h
  exact turnsThroughIdle_of_nextFsm hnext

theorem turnsThroughIdle_of_coincidentTick {v : PI} {x : HI} {d : Draws} (h : s.coincidentTick v x d = .next t) :
    TurnsThroughIdle s.blk.fsm t.blk.fsm := by
  obtain ⟨st, hnext, rfl⟩ := State.coincidentTick_next h
  exact turnsThroughIdle_of_nextFsm hnext

/-- A transition enters a direction from `IDLE` or from the direction itself; a tick goes where its key's row leads; and
nothing else but RESET touches the code. -/
theorem exec_turnsThroughIdle {i : Instr} (h : exec i s = .next t) : TurnsThroughIdle s.blk.fsm t.blk.fsm := by
  cases i with
  | fsmIdleRead =>
    exact turnsThroughIdle_of_performRow h fun hsel => .inr (.inl (beq_iff_eq.1 ((key_idleRead s _).symm.trans hsel)))
  | fsmIdleWrite =>
    refine turnsThroughIdle_of_performRow h fun hsel => .inr (.inl ?_)
    exact beq_iff_eq.1 (Bool.and_eq_true_iff.1 ((key_idleWrite s).symm.trans hsel)).1
  | fsmReadCont =>
    exact turnsThroughIdle_of_performRow h fun hsel => .inl (beq_iff_eq.1 ((key_readCont s _).symm.trans hsel)).symm
  | fsmWriteCont =>
    refine turnsThroughIdle_of_performRow h fun hsel => .inl (Eq.symm ?_)
    exact beq_iff_eq.1 (Bool.and_eq_true_iff.1 ((key_writeCont s _).symm.trans hsel)).1
  | fsmIdleHoldT0 | fsmIdleHoldD0 | fsmReadExit | fsmWriteExitT0 | fsmWriteExitD0 =>
    exact turnsThroughIdle_of_performRow h fun _ => .inr (.inr rfl)
  | fsmReserved => cases h
  | enq | deq => exact turnsThroughIdle_of_perform h (Block.setQueue_fsm ..)
  | enqRefused | deqEmpty => exact turnsThroughIdle_of_perform h rfl
  | syncR2W | syncW2R => cases h; exact .inl (Block.setQueue_fsm ..)
  | prodIdle | consIdle | submit | poll | fillLevel | tickH => cases h; exact .inl rfl
  | advance caller =>
    cases caller with
    | host => cases h; exact .inl rfl
    | peripheral v => exact turnsThroughIdle_of_peripheralTick h
  | tickP v => exact turnsThroughIdle_of_peripheralTick h
  | tickPH v x d => exact turnsThroughIdle_of_coincidentTick h
  | reset => cases h; exact .inr (.inr rfl)

end Turns

/-- A code other than `IDLE` stays or goes to `IDLE`. -/
theorem TurnsThroughIdle.of_ne_idle {st st' : BitVec 2} (h : TurnsThroughIdle st st') (hst : st ≠ IDLE) :
    st' = st ∨ st' = IDLE :=
  h.imp_right fun hidle => hidle.resolve_left hst

/-- Settles O48: neither direction is `IDLE`. -/
theorem busTurnsThroughIdle : Obligations.BusTurnsThroughIdle := by
  intro i s t hexec
  have hturn := exec_turnsThroughIdle hexec
  refine ⟨fun hreading => ?_, fun hwriting => ?_⟩
  · rw [hreading] at hturn
    exact hturn.of_ne_idle (by decide)
  · rw [hwriting] at hturn
    exact hturn.of_ne_idle (by decide)

/-! ### An enqueued word on its way to the consumer (R330) -/

section Latency

variable {a : Nat}

/-- An increment always moves a pointer, which has at least one bit. -/
theorem nextPtr_ne_self (p : BitVec (a + 1)) : nextPtr p ≠ p := by simp [nextPtr]

/-- No data is seen exactly where the consumer's view of the write pointer is the read pointer (R36). -/
theorem Queue.dataAvailable_eq_false_iff (q : Queue a) : q.dataAvailable = false ↔ gray2bin q.rWsync2 = q.rptrBin := by
  rw [Queue.dataAvailable, Queue.empty, Bool.not_eq_false', beq_iff_eq, Queue.rLevel]
  exact sub_eq_zero

/-- A consumer tick that requests nothing leaves the consumer's end alone. -/
@[simp] theorem Queue.consumerTick_false_rptrBin (q : Queue a) (out : Word) :
    (q.consumerTick false out).rptrBin = q.rptrBin := rfl

variable {q : Queue a} (h : QueueQuiet q) (w : Word)
include h

/-- An offer to a quiet queue fires. -/
theorem Queue.producerTick_of_quiet : q.producerTick true w = (q.enqueue w).shiftR2W q.rptrGray q.ghost.rc :=
  Queue.producerTick_of_enqFire w (Queue.spaceAvailable_of_quiet h)

/-- The first consumer tick still takes over the write pointer sampled before the enqueue. -/
theorem Queue.dataAvailable_first_consumerTick (out : Word) :
    ((q.producerTick true w).consumerTick false out).dataAvailable = false := by
  rw [Queue.dataAvailable_eq_false_iff]
  calc gray2bin ((q.producerTick true w).consumerTick false out).rWsync2 = gray2bin q.rWsync1 := by simp
    _ = q.rptrBin := by rw [h.rWsync1, h.wptr, gray2bin_bin2gray, h.empty]
    _ = ((q.producerTick true w).consumerTick false out).rptrBin := by simp

/-- The second takes over the sample of the first, which is the write pointer after the enqueue. -/
theorem Queue.dataAvailable_second_consumerTick (out out' : Word) :
    (((q.producerTick true w).consumerTick false out).consumerTick false out').dataAvailable = true := by
  rw [← Bool.not_eq_false, Queue.dataAvailable_eq_false_iff]
  simp [Queue.producerTick_of_quiet h, gray2bin_bin2gray, h.empty, nextPtr_ne_self]

/-- The entry written is the one at the read pointer, which equals the write pointer. -/
theorem Queue.headWord_second_consumerTick (out out' : Word) (era : Nat) (id : QueueId) :
    (((q.producerTick true w).consumerTick false out).consumerTick false out').headWord era id = w := by
  rw [Queue.headWord, Queue.consumerTick_mem, Queue.consumerTick_mem, Queue.consumerTick_false_rptrBin,
    Queue.consumerTick_false_rptrBin, Queue.producerTick_rptrBin, ← h.empty, Queue.producerTick_of_quiet h]
  exact memRead_write_same ..

end Latency

/-- Settles O54: the write pointer passes the two stages in two consumer ticks. -/
theorem enqueueShowsAtSecondConsumerTick : Obligations.EnqueueShowsAtSecondConsumerTick := by
  refine fun a q id era w _ hquiet => ⟨?_, Queue.dataAvailable_first_consumerTick hquiet w 0,
    Queue.dataAvailable_second_consumerTick hquiet w 0 0, Queue.headWord_second_consumerTick hquiet w 0 0 era id⟩
  rw [Queue.producerTick_dataAvailable]
  exact Queue.dataAvailable_of_quiet hquiet

end Sys2Proof.Machine
end

section
/-! PROOFS about selection (30_encoding.md section 4; log entries 6, 7 and 14): what an operation does in a state whose bits
do not match its row, and that `withFetchWord` brings about a state whose bits do. A key selects its row exactly where
`selectedIn` says so, by the laws of the keys. -/

namespace Sys2Proof.Machine

open Sys2Proof.Safety

/-! ### An operation its key does not select (log entry 7) -/

section Unselected

variable {s : State}

theorem State.perform_of_not_selected {selected : Bool} (h : selected = false) (t : State) :
    s.perform selected t = .next s.unselected :=
  State.perform_next.2 (.inr ⟨h, rfl⟩)

theorem State.performRow_of_not_selected {mask value : BitVec 6} {r t : Bool} (hs : FsmDefined s)
    (h : keySelects mask value (s.key r t) = false) (u : State) :
    s.performRow mask value (s.key r t) u = .next s.unselected :=
  State.performRow_next.2 ⟨mt nextFsm_key_none.1 (State.ne_reserved_of_fsmDefined hs), .inr ⟨h, rfl⟩⟩

/-- Only the controller's transitions and four port operations test a state bit; the reserved row stops instead (R169). -/
theorem exec_of_not_selectedIn {i : Instr} (h : selectedIn s i = false) (hs : isTransition i = true → FsmDefined s)
    (hi : ∀ r t d sp, i ≠ .fsmReserved r t d sp) : exec i s = .next s.unselected := by
  cases i with
  | fsmIdleRead t => exact State.performRow_of_not_selected (hs rfl) ((key_idleRead s t).trans h) _
  | fsmIdleWrite => exact State.performRow_of_not_selected (hs rfl) ((key_idleWrite s).trans h) _
  | fsmIdleHoldT0 => exact State.performRow_of_not_selected (hs rfl) ((key_idleHoldT0 s).trans h) _
  | fsmIdleHoldD0 => exact State.performRow_of_not_selected (hs rfl) ((key_idleHoldD0 s).trans h) _
  | fsmReadCont t => exact State.performRow_of_not_selected (hs rfl) ((key_readCont s t).trans h) _
  | fsmReadExit t => exact State.performRow_of_not_selected (hs rfl) ((key_readExit s t).trans h) _
  | fsmWriteCont r => exact State.performRow_of_not_selected (hs rfl) ((key_writeCont s r).trans h) _
  | fsmWriteExitT0 r => exact State.performRow_of_not_selected (hs rfl) ((key_writeExitT0 s r).trans h) _
  | fsmWriteExitD0 r => exact State.performRow_of_not_selected (hs rfl) ((key_writeExitD0 s r).trans h) _
  | fsmReserved r t d sp => exact absurd rfl (hi r t d sp)
  | enq => exact State.perform_of_not_selected ((key_enq _).trans h) _
  | enqRefused => exact State.perform_of_not_selected ((key_enqRefused _).trans h) _
  | deq => exact State.perform_of_not_selected ((key_deq _).trans h) _
  | deqEmpty => exact State.perform_of_not_selected ((key_deqEmpty _).trans h) _
  | prodIdle | syncR2W | consIdle | syncW2R | submit | poll | advance | fillLevel | tickP | tickH | tickPH | reset =>
    cases h

end Unselected

/-- Settles O26: what is not performed leaves `State.unselected`, the block as it was and a blank observation. -/
theorem unselectedOperationsChangeNothing : Obligations.UnselectedOperationsChangeNothing :=
  fun _ s hsel hs hi => ⟨s.looks + 2, exec_of_not_selectedIn hsel hs hi⟩

/-! ### The flags that `selecting` brings about (R35, R36) -/

section Force

variable {a : Nat} (q : Queue a)

/-- No space is seen exactly where the producer's view of the read pointer is `DEPTH` behind the write pointer (R35). -/
theorem Queue.spaceAvailable_eq_false_iff_sub :
    q.spaceAvailable = false ↔ q.wptrBin - gray2bin q.wRsync2 = depthLevel a := by
  rw [Queue.spaceAvailable, Queue.full, Bool.not_eq_false', beq_iff_eq, Queue.wLevel]

theorem depthLevel_ne_zero (a : Nat) : depthLevel a ≠ 0 := fun h =>
  (Nat.two_pow_pos a).ne' ((toNat_depthLevel a).symm.trans (congrArg BitVec.toNat h))

/-- A view of the write pointer one ahead of the read pointer shows data, one equal to it shows none. -/
@[simp] theorem Queue.forceData_dataAvailable (b : Bool) : (q.forceData b).dataAvailable = b := by
  unfold Queue.forceData
  split
  case isTrue hsame => exact eq_of_beq hsame
  case isFalse =>
    cases b with
    | false => exact (Queue.dataAvailable_eq_false_iff _).2 (gray2bin_bin2gray _)
    | true =>
      rw [← Bool.not_eq_false, Queue.dataAvailable_eq_false_iff]
      exact fun h => nextPtr_ne_self _ ((gray2bin_bin2gray _).symm.trans h)

/-- A view of the read pointer equal to the write pointer shows space, one `DEPTH` behind it shows none. -/
@[simp] theorem Queue.forceSpace_spaceAvailable (b : Bool) : (q.forceSpace b).spaceAvailable = b := by
  unfold Queue.forceSpace
  split
  case isTrue hsame => exact eq_of_beq hsame
  case isFalse =>
    cases b with
    | false =>
      rw [Queue.spaceAvailable_eq_false_iff_sub]
      simp [gray2bin_bin2gray]
    | true =>
      rw [← Bool.not_eq_false, Queue.spaceAvailable_eq_false_iff_sub]
      simpa [gray2bin_bin2gray] using (depthLevel_ne_zero a).symm

end Force

/-! ### The state that `selecting` sets (log entry 14) -/

section Selecting

variable (s : State) (i : Instr)

@[simp] theorem State.selecting_cfg : (s.selecting i).cfg = s.cfg := by cases i <;> rfl
@[simp] theorem State.selecting_lone : (s.selecting i).lone = s.lone := by cases i <;> rfl

@[simp] theorem State.setQueue_queue (id : QueueId) (q : Queue s.cfg.a) : (s.setQueue id q).queue id = q :=
  s.blk.setQueue_queue q id

/-- The state code and the flag that the row tests are the ones set, and neither write undoes the other. -/
theorem State.selectedIn_selecting : selectedIn (s.selecting i) i = true := by
  cases i with
  | fsmIdleRead | fsmIdleHoldT0 => exact beq_self_eq_true IDLE
  | fsmReadCont | fsmReadExit => exact beq_self_eq_true READING
  | fsmWriteExitT0 => exact beq_self_eq_true WRITING
  | fsmReserved => exact beq_self_eq_true RESERVED
  | fsmIdleWrite | fsmWriteCont => exact s.blk.outq.forceData_dataAvailable true
  | fsmIdleHoldD0 | fsmWriteExitD0 => exact congrArg (! ·) (s.blk.outq.forceData_dataAvailable false)
  | enq | enqRefused | deq | deqEmpty => simp [State.selecting, selectedIn]
  | prodIdle | syncR2W | consIdle | syncW2R | submit | poll | advance | fillLevel | tickP | tickH | tickPH | reset => rfl

end Selecting

/-! ### The step after `withFetchWord` (log entries 6 and 14) -/

theorem decode_of_decodeTableWord {nbits w : Nat} {i : Instr} (h : decodeTableWord nbits w = some i) :
    decode (tableWord nbits w) = .op i := by
  unfold decodeTableWord at h
  split at h
  · next j hd => exact hd.trans (congrArg Decoded.op (Option.some.inj h))
  · cases h
  · cases h

theorem State.withFetchWord_of_decodeTableWord {nbits w : Nat} {i : Instr} (s : State)
    (h : decodeTableWord nbits w = some i) :
    s.withFetchWord nbits w = ((s.selecting i).allow i).present (tableWord nbits w) := by
  rw [State.withFetchWord, h]

/-- A state that allows an operation runs it when its word is presented first. -/
theorem step_present_allow {s : State} {w : OpWord} {i : Instr} (hl : s.cfg.legal = true) (hd : decode w = .op i) :
    step ((s.allow i).present w) = exec i (s.allow i) := by
  have hrun : (s.lone || !isBlockStep i) = true ∨ isBlockStep i = true := by
    cases isBlockStep i with
    | true => exact .inr rfl
    | false => exact .inl (Bool.or_true _)
  exact (stepRunsDecodedOperation ((s.allow i).present w) w s.pending i hl rfl hd).1 hrun

/-- Settles O11: the word presented is the row's, the state lets it be run, and the bits its row tests are set. -/
theorem fetchedWordRunsSelected : Obligations.FetchedWordRunsSelected := by
  intro s nbits w i hl hrow
  have hlegal : (s.selecting i).cfg.legal = true := by rwa [s.selecting_cfg i]
  refine ⟨?_, s.selectedIn_selecting i⟩
  rw [s.withFetchWord_of_decodeTableWord hrow, step_present_allow hlegal (decode_of_decodeTableWord hrow), State.allow,
    s.selecting_lone i]

end Sys2Proof.Machine
end
